-- ==== Sys2Proof/Word.lean ====
section
/-! DEFINITION. The word types of the machine (00_scope R5, R6): every value is an unsigned bit vector. -/

namespace Sys2Proof

/-- A byte of memory and the contents of a general register (R5 "byte width", R21). -/
abbrev Byte := BitVec 8

/-- An instruction word and the contents of I, PC, a stack entry and the timers (R5, R90). -/
abbrev Word := BitVec 16

/-- The address field NNN (R91). -/
abbrev Addr := BitVec 12

/-- A nibble, such as the size field N (R91). -/
abbrev Nibble := BitVec 4

/-- The number of a general register, 0 to 15 (R21, R94). -/
abbrev Reg := Fin 16

end Sys2Proof
end

