-- ==== Sys2Proof/Config.lean ====
section
/-! DEFINITION. What is fixed for one machine, and the free inputs.

`Config` is the parameter record of 00_scope R5. It stands in the state (notes/assumptions/1.md), so that a claim about every
state is a claim about every setting of the parameters. The opaque constants are the free inputs of R120 and R37: they have no
body, so nothing can be proved about their values. -/

namespace Sys2Proof

/-- `P_SHIFT_SRC` (R5, R196): the register that SHIFT-right and SHIFT-left shift. -/
inductive ShiftSrc where
  | x
  | y
deriving DecidableEq, Repr

/-- The implementation parameters of R5. -/
structure Config where
  /-- `FONT_BASE`, the address of glyph 0. -/
  fontBase : Nat
  /-- `FONT_GLYPHS`, 80 bytes. -/
  fontGlyphs : List Byte
  /-- `INIT_MEM`, byte `a` of the list is address `a`; an address past the list's end is 0x00. -/
  initMem : List Byte
  /-- `TICK_BATCH`: `none`, or the positive number of completed steps per tick. -/
  tickBatch : Option Nat
  /-- `P_HAS_MOV`: the register move 8XY0 exists. -/
  hasMov : Bool
  /-- `P_HAS_SOUND_TIMER`: FX18 and the sound timer exist. -/
  hasSoundTimer : Bool
  /-- `P_SHIFT_SRC`. -/
  shiftSrc : ShiftSrc
  /-- `P_DRAW_RESETS_VF`: draw-sprite writes 0 to VF before it composites. -/
  drawResetsVf : Bool
deriving DecidableEq, Repr

/-- The glyphs of the digits 0 to 7 (R61). -/
def Config.glyphsLow : List Byte :=
  [0xF0, 0x90, 0x90, 0x90, 0xF0,
   0x20, 0x60, 0x20, 0x20, 0x70,
   0xF0, 0x10, 0xF0, 0x80, 0xF0,
   0xF0, 0x10, 0xF0, 0x10, 0xF0,
   0x90, 0x90, 0xF0, 0x10, 0x10,
   0xF0, 0x80, 0xF0, 0x10, 0xF0,
   0xF0, 0x80, 0xF0, 0x90, 0xF0,
   0xF0, 0x10, 0x20, 0x40, 0x40]

/-- The glyphs of the digits 8 to F (R61). -/
def Config.glyphsHigh : List Byte :=
  [0xF0, 0x90, 0xF0, 0x90, 0xF0,
   0xF0, 0x90, 0xF0, 0x10, 0xF0,
   0xF0, 0x90, 0xF0, 0x90, 0x90,
   0xE0, 0x90, 0xE0, 0x90, 0xE0,
   0xF0, 0x80, 0x80, 0x80, 0xF0,
   0xE0, 0x90, 0x90, 0x90, 0xE0,
   0xF0, 0x80, 0xF0, 0x80, 0xF0,
   0xF0, 0x80, 0xF0, 0x80, 0x80]

/-- The parameters at the defaults of R5. -/
def Config.default : Config where
  fontBase := 0
  fontGlyphs := Config.glyphsLow ++ Config.glyphsHigh
  initMem := []
  tickBatch := none
  hasMov := false
  hasSoundTimer := false
  shiftSrc := .x
  drawResetsVf := false

/-- The values of the parameters that R5 allows: the font ends at or below the program origin and has 80 bytes, the initial image
is no longer than memory, and a batch is positive. -/
def Config.wf (c : Config) : Bool :=
  decide (c.fontBase + 80 ≤ 0x200) && decide (c.fontGlyphs.length = 80) && decide (c.initMem.length ≤ 4096)
    && decide (c.tickBatch ≠ some 0)

/-- FREE VALUE (notes/assumptions/3.md). The input port `keys` at the step numbered by the argument (R120, R122, R37). -/
opaque Config.keysPort : Nat → BitVec 16

/-- FREE VALUE (notes/assumptions/4.md). The input port `rnd` at the sample numbered by the argument (R120, R211, R37). -/
opaque Config.rndPort : Nat → Byte

/-- FREE VALUE (notes/assumptions/5.md). How many ticks occur before the step numbered by the argument and after the one before
it, when `TICK_BATCH = none` (R127). -/
opaque Config.ticksBefore : Nat → Nat

end Sys2Proof
end

