-- ==== Sys2Proof/Syntax.lean ====
section
/-! DEFINITION. The instructions, one constructor per row of spec/opcode_table.json (30_encoding R96), in the table's order. -/

namespace Sys2Proof

/-- The 37 instruction kinds of R96 and the two optional ones. `x` and `y` are the register fields X and Y, `kk`, `nnn` and `n`
the immediate, address and size fields (R92). SHIFT-right and SHIFT-left carry Y, which they use only when `P_SHIFT_SRC = Y`. -/
inductive Instr where
  /-- scroll-down, 00CN -/
  | scd (n : Nibble)
  /-- clear-screen, 00E0 -/
  | cls
  /-- return, 00EE -/
  | ret
  /-- scroll-right, 00FB -/
  | scr
  /-- scroll-left, 00FC -/
  | scl
  /-- set-low-res, 00FE -/
  | low
  /-- set-high-res, 00FF -/
  | high
  /-- jump, 1NNN -/
  | jp (nnn : Addr)
  /-- call, 2NNN -/
  | call (nnn : Addr)
  /-- skip-if-equal-immediate, 3XKK -/
  | seImm (x : Reg) (kk : Byte)
  /-- skip-if-not-equal-immediate, 4XKK -/
  | sneImm (x : Reg) (kk : Byte)
  /-- skip-if-registers-equal, 5XY0 -/
  | seReg (x y : Reg)
  /-- load-immediate, 6XKK -/
  | ldImm (x : Reg) (kk : Byte)
  /-- add-immediate, 7XKK -/
  | addImm (x : Reg) (kk : Byte)
  /-- OR, 8XY1 -/
  | orReg (x y : Reg)
  /-- AND, 8XY2 -/
  | andReg (x y : Reg)
  /-- XOR, 8XY3 -/
  | xorReg (x y : Reg)
  /-- ADD, 8XY4 -/
  | addReg (x y : Reg)
  /-- SUB, 8XY5 -/
  | sub (x y : Reg)
  /-- SHIFT-right, 8XY6 -/
  | shr (x y : Reg)
  /-- SUB-reverse, 8XY7 -/
  | subn (x y : Reg)
  /-- SHIFT-left, 8XYE -/
  | shl (x y : Reg)
  /-- skip-if-registers-not-equal, 9XY0 -/
  | sneReg (x y : Reg)
  /-- set-index, ANNN -/
  | ldI (nnn : Addr)
  /-- jump-with-offset, BNNN -/
  | jpV0 (nnn : Addr)
  /-- random-AND-mask, CXKK -/
  | rnd (x : Reg) (kk : Byte)
  /-- draw-sprite, DXYN -/
  | drw (x y : Reg) (n : Nibble)
  /-- skip-if-key-pressed, EX9E -/
  | skp (x : Reg)
  /-- skip-if-key-not-pressed, EXA1 -/
  | sknp (x : Reg)
  /-- get-delay-timer, FX07 -/
  | ldVxDt (x : Reg)
  /-- wait-for-key, FX0A -/
  | ldVxK (x : Reg)
  /-- set-delay-timer, FX15 -/
  | ldDtVx (x : Reg)
  /-- add-to-index, FX1E -/
  | addI (x : Reg)
  /-- set-index-to-font-glyph, FX29 -/
  | ldF (x : Reg)
  /-- binary-coded-decimal, FX33 -/
  | ldB (x : Reg)
  /-- store-registers, FX55 -/
  | stRegs (x : Reg)
  /-- load-registers, FX65 -/
  | ldRegs (x : Reg)
  /-- register move, 8XY0, exists only when `P_HAS_MOV` (R198) -/
  | movReg (x y : Reg)
  /-- set-sound-timer, FX18, exists only when `P_HAS_SOUND_TIMER` (R258) -/
  | ldStVx (x : Reg)
deriving DecidableEq, Repr

end Sys2Proof
end

