-- ==== Sys2Proof/WellFormed.lean ====
section
/-! DEFINITION. Which instructions a machine has. The fields of an instruction have their exact widths by type, so the one thing
left to check is that an optional row of the opcode table is enabled (30_encoding R96, R97). -/

namespace Sys2Proof

/-- The instruction's row of R96 counts for a machine with parameters `c`: the two optional rows count "only when enabled" (R97). -/
def Instr.wellFormed (c : Config) : Instr → Bool
  | .movReg _ _ => c.hasMov
  | .ldStVx _ => c.hasSoundTimer
  | .scd _ | .cls | .ret | .scr | .scl | .low | .high | .jp _ | .call _ | .seImm _ _ | .sneImm _ _ | .seReg _ _ | .ldImm _ _
  | .addImm _ _ | .orReg _ _ | .andReg _ _ | .xorReg _ _ | .addReg _ _ | .sub _ _ | .shr _ _ | .subn _ _ | .shl _ _ | .sneReg _ _
  | .ldI _ | .jpV0 _ | .rnd _ _ | .drw _ _ _ | .skp _ | .sknp _ | .ldVxDt _ | .ldVxK _ | .ldDtVx _ | .addI _ | .ldF _ | .ldB _
  | .stRegs _ | .ldRegs _ => true

end Sys2Proof
end

