-- ==== Sys2Proof/Decode.lean ====
section
/-! DEFINITION. The decoder and the encoder (30_encoding R90 to R97). The bit patterns are the spec's adopted ones (R98,
notes/assumptions/7.md). -/

namespace Sys2Proof

/-- What a word decodes to: an instruction of R96, or the word itself, unmapped (R95, R97). -/
inductive Decoded where
  | instr (i : Instr)
  | unmapped (w : Word)
deriving DecidableEq, Repr

/-- The word of the byte at the lower address and the byte after it: the first is the high byte (R63, R90). -/
def wordOfBytes (b0 b1 : Byte) : Word := b0 ++ b1

/-- The high byte of a word (R63). -/
def highByte (w : Word) : Byte := w.extractLsb' 8 8

/-- The low byte of a word (R63). -/
def lowByte (w : Word) : Byte := w.extractLsb' 0 8

/-- The first nibble, bits 15 to 12 (R91). -/
def fieldN3 (w : Word) : Nibble := w.extractLsb' 12 4

/-- The second nibble, bits 11 to 8 (R91). -/
def fieldN2 (w : Word) : Nibble := w.extractLsb' 8 4

/-- The third nibble, bits 7 to 4 (R91). -/
def fieldN1 (w : Word) : Nibble := w.extractLsb' 4 4

/-- The fourth nibble, bits 3 to 0 (R91). -/
def fieldN0 (w : Word) : Nibble := w.extractLsb' 0 4

/-- The address field, bits 11 to 0 (R91). -/
def fieldNNN (w : Word) : Addr := w.extractLsb' 0 12

/-- The immediate field, bits 7 to 0 (R91). -/
def fieldKK (w : Word) : Byte := w.extractLsb' 0 8

/-- The first register operand, X = n2 (R92). -/
def fieldX (w : Word) : Reg := (fieldN2 w).toFin

/-- The second register operand, Y = n1 (R92). -/
def fieldY (w : Word) : Reg := (fieldN1 w).toFin

/-- Group 0 (R96): formats Z and ZN; n2 is the fixed nibble 0. -/
def decodeGroup0 (w : Word) : Decoded :=
  if fieldN2 w ≠ 0 then .unmapped w
  else if fieldN1 w = 0xC then .instr (.scd (fieldN0 w))
  else if fieldKK w = 0xE0 then .instr .cls
  else if fieldKK w = 0xEE then .instr .ret
  else if fieldKK w = 0xFB then .instr .scr
  else if fieldKK w = 0xFC then .instr .scl
  else if fieldKK w = 0xFE then .instr .low
  else if fieldKK w = 0xFF then .instr .high
  else .unmapped w

/-- Group 8 (R96): format XY, selected by n0; 8XY0 is the optional register move. -/
def decodeGroup8 (w : Word) : Decoded :=
  if fieldN0 w = 0x0 then .instr (.movReg (fieldX w) (fieldY w))
  else if fieldN0 w = 0x1 then .instr (.orReg (fieldX w) (fieldY w))
  else if fieldN0 w = 0x2 then .instr (.andReg (fieldX w) (fieldY w))
  else if fieldN0 w = 0x3 then .instr (.xorReg (fieldX w) (fieldY w))
  else if fieldN0 w = 0x4 then .instr (.addReg (fieldX w) (fieldY w))
  else if fieldN0 w = 0x5 then .instr (.sub (fieldX w) (fieldY w))
  else if fieldN0 w = 0x6 then .instr (.shr (fieldX w) (fieldY w))
  else if fieldN0 w = 0x7 then .instr (.subn (fieldX w) (fieldY w))
  else if fieldN0 w = 0xE then .instr (.shl (fieldX w) (fieldY w))
  else .unmapped w

/-- Group E (R96): format XS, selected by KK. -/
def decodeGroupE (w : Word) : Decoded :=
  if fieldKK w = 0x9E then .instr (.skp (fieldX w))
  else if fieldKK w = 0xA1 then .instr (.sknp (fieldX w))
  else .unmapped w

/-- Group F (R96): format XS, selected by KK; FX18 is the optional set-sound-timer. -/
def decodeGroupF (w : Word) : Decoded :=
  if fieldKK w = 0x07 then .instr (.ldVxDt (fieldX w))
  else if fieldKK w = 0x0A then .instr (.ldVxK (fieldX w))
  else if fieldKK w = 0x15 then .instr (.ldDtVx (fieldX w))
  else if fieldKK w = 0x18 then .instr (.ldStVx (fieldX w))
  else if fieldKK w = 0x1E then .instr (.addI (fieldX w))
  else if fieldKK w = 0x29 then .instr (.ldF (fieldX w))
  else if fieldKK w = 0x33 then .instr (.ldB (fieldX w))
  else if fieldKK w = 0x55 then .instr (.stRegs (fieldX w))
  else if fieldKK w = 0x65 then .instr (.ldRegs (fieldX w))
  else .unmapped w

/-- Decoding is total (R95): the row of R96 that the word matches, the two optional rows included, or the word, unmapped. The
selection is by n3, then by the fixed nibbles of the format (R96); constant nibbles are matched strictly (R97). -/
def decode (w : Word) : Decoded :=
  match (fieldN3 w).toNat with
  | 0x0 => decodeGroup0 w
  | 0x1 => .instr (.jp (fieldNNN w))
  | 0x2 => .instr (.call (fieldNNN w))
  | 0x3 => .instr (.seImm (fieldX w) (fieldKK w))
  | 0x4 => .instr (.sneImm (fieldX w) (fieldKK w))
  | 0x5 => if fieldN0 w = 0 then .instr (.seReg (fieldX w) (fieldY w)) else .unmapped w
  | 0x6 => .instr (.ldImm (fieldX w) (fieldKK w))
  | 0x7 => .instr (.addImm (fieldX w) (fieldKK w))
  | 0x8 => decodeGroup8 w
  | 0x9 => if fieldN0 w = 0 then .instr (.sneReg (fieldX w) (fieldY w)) else .unmapped w
  | 0xA => .instr (.ldI (fieldNNN w))
  | 0xB => .instr (.jpV0 (fieldNNN w))
  | 0xC => .instr (.rnd (fieldX w) (fieldKK w))
  | 0xD => .instr (.drw (fieldX w) (fieldY w) (fieldN0 w))
  | 0xE => decodeGroupE w
  | _ => decodeGroupF w

/-- The instruction a machine with parameters `c` dispatches on a word: a row of R96 "with the optional rows counted only when
enabled" (R97), detected at dispatch (R95, R121 step 5). -/
def dispatch (c : Config) (w : Word) : Decoded :=
  match decode w with
  | .instr i => if i.wellFormed c then .instr i else .unmapped w
  | .unmapped w' => .unmapped w'

/-- A register number as a nibble. -/
def regNibble (r : Reg) : Nibble := BitVec.ofFin r

/-- Format A (R93): op and NNN. -/
def wordA (op : Nibble) (nnn : Addr) : Word := op ++ nnn

/-- Formats XK and XS (R93): op, X and the low byte. -/
def wordXK (op : Nibble) (x : Reg) (kk : Byte) : Word := (op ++ regNibble x : BitVec 8) ++ kk

/-- Formats XY and XYN (R93): op, X, Y and the last nibble. -/
def wordXYN (op : Nibble) (x y : Reg) (n : Nibble) : Word := (op ++ regNibble x : BitVec 8) ++ (regNibble y ++ n : BitVec 8)

/-- The word of an instruction, from the patterns of R96. -/
def encode : Instr → Word
  | .scd n => (0x00C : BitVec 12) ++ n
  | .cls => 0x00E0
  | .ret => 0x00EE
  | .scr => 0x00FB
  | .scl => 0x00FC
  | .low => 0x00FE
  | .high => 0x00FF
  | .jp nnn => wordA 0x1 nnn
  | .call nnn => wordA 0x2 nnn
  | .seImm x kk => wordXK 0x3 x kk
  | .sneImm x kk => wordXK 0x4 x kk
  | .seReg x y => wordXYN 0x5 x y 0x0
  | .ldImm x kk => wordXK 0x6 x kk
  | .addImm x kk => wordXK 0x7 x kk
  | .orReg x y => wordXYN 0x8 x y 0x1
  | .andReg x y => wordXYN 0x8 x y 0x2
  | .xorReg x y => wordXYN 0x8 x y 0x3
  | .addReg x y => wordXYN 0x8 x y 0x4
  | .sub x y => wordXYN 0x8 x y 0x5
  | .shr x y => wordXYN 0x8 x y 0x6
  | .subn x y => wordXYN 0x8 x y 0x7
  | .shl x y => wordXYN 0x8 x y 0xE
  | .sneReg x y => wordXYN 0x9 x y 0x0
  | .ldI nnn => wordA 0xA nnn
  | .jpV0 nnn => wordA 0xB nnn
  | .rnd x kk => wordXK 0xC x kk
  | .drw x y n => wordXYN 0xD x y n
  | .skp x => wordXK 0xE x 0x9E
  | .sknp x => wordXK 0xE x 0xA1
  | .ldVxDt x => wordXK 0xF x 0x07
  | .ldVxK x => wordXK 0xF x 0x0A
  | .ldDtVx x => wordXK 0xF x 0x15
  | .addI x => wordXK 0xF x 0x1E
  | .ldF x => wordXK 0xF x 0x29
  | .ldB x => wordXK 0xF x 0x33
  | .stRegs x => wordXK 0xF x 0x55
  | .ldRegs x => wordXK 0xF x 0x65
  | .movReg x y => wordXYN 0x8 x y 0x0
  | .ldStVx x => wordXK 0xF x 0x18

/-- A pattern of the opcode map: a word is of the row when `word & mask = match` (R96). -/
abbrev OpcodeRow := Word × Word

/-- `word & mask = match` (R96), a row being the pair of its match and its mask. -/
def rowMatches (row : OpcodeRow) (w : Word) : Bool := w &&& row.2 == row.1

/-- The match and mask columns of R96 for the instruction's row. -/
def Instr.row : Instr → OpcodeRow
  | .scd _ => (0x00C0, 0xFFF0)
  | .cls => (0x00E0, 0xFFFF)
  | .ret => (0x00EE, 0xFFFF)
  | .scr => (0x00FB, 0xFFFF)
  | .scl => (0x00FC, 0xFFFF)
  | .low => (0x00FE, 0xFFFF)
  | .high => (0x00FF, 0xFFFF)
  | .jp _ => (0x1000, 0xF000)
  | .call _ => (0x2000, 0xF000)
  | .seImm _ _ => (0x3000, 0xF000)
  | .sneImm _ _ => (0x4000, 0xF000)
  | .seReg _ _ => (0x5000, 0xF00F)
  | .ldImm _ _ => (0x6000, 0xF000)
  | .addImm _ _ => (0x7000, 0xF000)
  | .orReg _ _ => (0x8001, 0xF00F)
  | .andReg _ _ => (0x8002, 0xF00F)
  | .xorReg _ _ => (0x8003, 0xF00F)
  | .addReg _ _ => (0x8004, 0xF00F)
  | .sub _ _ => (0x8005, 0xF00F)
  | .shr _ _ => (0x8006, 0xF00F)
  | .subn _ _ => (0x8007, 0xF00F)
  | .shl _ _ => (0x800E, 0xF00F)
  | .sneReg _ _ => (0x9000, 0xF00F)
  | .ldI _ => (0xA000, 0xF000)
  | .jpV0 _ => (0xB000, 0xF000)
  | .rnd _ _ => (0xC000, 0xF000)
  | .drw _ _ _ => (0xD000, 0xF000)
  | .skp _ => (0xE09E, 0xF0FF)
  | .sknp _ => (0xE0A1, 0xF0FF)
  | .ldVxDt _ => (0xF007, 0xF0FF)
  | .ldVxK _ => (0xF00A, 0xF0FF)
  | .ldDtVx _ => (0xF015, 0xF0FF)
  | .addI _ => (0xF01E, 0xF0FF)
  | .ldF _ => (0xF029, 0xF0FF)
  | .ldB _ => (0xF033, 0xF0FF)
  | .stRegs _ => (0xF055, 0xF0FF)
  | .ldRegs _ => (0xF065, 0xF0FF)
  | .movReg _ _ => (0x8000, 0xF00F)
  | .ldStVx _ => (0xF018, 0xF0FF)

/-- The match and mask columns of R96: the 37 rows in the table's order. -/
def opcodeRows : List OpcodeRow :=
  [(0x00C0, 0xFFF0), (0x00E0, 0xFFFF), (0x00EE, 0xFFFF), (0x00FB, 0xFFFF), (0x00FC, 0xFFFF), (0x00FE, 0xFFFF), (0x00FF, 0xFFFF),
   (0x1000, 0xF000), (0x2000, 0xF000), (0x3000, 0xF000), (0x4000, 0xF000), (0x5000, 0xF00F), (0x6000, 0xF000), (0x7000, 0xF000)]
  ++
  [(0x8001, 0xF00F), (0x8002, 0xF00F), (0x8003, 0xF00F), (0x8004, 0xF00F), (0x8005, 0xF00F), (0x8006, 0xF00F), (0x8007, 0xF00F),
   (0x800E, 0xF00F), (0x9000, 0xF00F), (0xA000, 0xF000), (0xB000, 0xF000), (0xC000, 0xF000), (0xD000, 0xF000)]
  ++
  [(0xE09E, 0xF0FF), (0xE0A1, 0xF0FF), (0xF007, 0xF0FF), (0xF00A, 0xF0FF), (0xF015, 0xF0FF), (0xF01E, 0xF0FF), (0xF029, 0xF0FF),
   (0xF033, 0xF0FF), (0xF055, 0xF0FF), (0xF065, 0xF0FF)]

/-- The rows of R96 that count for a machine with parameters `c`: the 37, and the optional ones that are enabled. -/
def enabledRows (c : Config) : List OpcodeRow :=
  opcodeRows ++ (if c.hasMov then [(0x8000, 0xF00F)] else []) ++ (if c.hasSoundTimer then [(0xF018, 0xF0FF)] else [])

/-- The instruction the decoder reads from an instruction whose bits are `w`, numbered as spec/opcode_table.json numbers them; the
bits above `nbits` are 0. The word is laid out high byte first (R63) and given to the decoder. -/
def decodeTableWord (nbits w : Nat) : Option Instr :=
  let word : Word := BitVec.ofNat 16 (w % 2 ^ nbits)
  match decode (wordOfBytes (highByte word) (lowByte word)) with
  | .instr i => some i
  | .unmapped _ => none

end Sys2Proof
end

