-- ==== Sys2Proof/Machine/State.lean ====
section
/-! DEFINITION. The state of the core (10_state R20), its output ports (R37), and the reset state (R38, R310). -/

namespace Sys2Proof.Machine

/-- The resolution mode (R31). -/
inductive Mode where
  | low
  | high
deriving DecidableEq, Repr

/-- The run status (R34). -/
inductive RunStatus where
  | running
  | halted
deriving DecidableEq, Repr

/-- The five kinds of synchronous fault (60_exceptions R270). Each is an entry the machine takes (R282), so it is part of a next
state; the stops of the model are in `Fault`. -/
inductive FaultKind where
  /-- code 1, a word that matches no row of the opcode table (R271) -/
  | unmappedOpcode
  /-- code 2, a call with 128 saved entries (R272) -/
  | stackOverflow
  /-- code 3, a return with an empty stack (R273) -/
  | stackUnderflow
  /-- code 4, an access with a byte above address 4095 (R274) -/
  | addressOutOfRange
  /-- code 5, a key skip whose register holds a value above 15 (R275) -/
  | keyIndexOutOfRange
deriving DecidableEq, Repr

/-- The fault record FAULT (R34, R126, R282). -/
structure FaultRecord where
  kind : FaultKind
  /-- the info column of R270: the word, SP, the highest address, or the key index -/
  info : Nat
  /-- the PC of the faulting instruction -/
  pc : Word
  /-- its word, absent when the fetch itself faulted -/
  word : Option Word
deriving DecidableEq, Repr

/-- The architectural state (R20), the two output ports that are not functions of it (R37), and the model's own fields (the last
three). -/
structure State where
  /-- the parameter record of R5; the model's own field, fixed for a machine (notes/assumptions/1.md) -/
  cfg : Config
  /-- MEM (R33, R60): (address, byte) pairs, addresses strictly rising, no entry equal to the reset content -/
  mem : List Host.Cell
  /-- V[0..15]; V[15] is VF, the status register (R21, R22) -/
  v : Vector Byte 16
  /-- I, the index register (R24) -/
  i : Word
  /-- PC, the program counter (R25) -/
  pc : Word
  /-- SP, the number of saved entries, 0 to 128 (R27) -/
  sp : Fin 129
  /-- STACK[0..127] (R28) -/
  stack : Vector Word 128
  /-- DT, the delay timer (R29) -/
  dt : BitVec 16
  /-- ST, the sound timer; stays 0 where it does not exist (R39, notes/assumptions/12.md) -/
  st : BitVec 16
  /-- KEYS, the key latch; bit k is logical key k (R30) -/
  keys : BitVec 16
  /-- MODE (R31) -/
  mode : Mode
  /-- DISP: COLS * ROWS cells, the cell at column c and row r at index r * COLS + c (R32) -/
  disp : List Bool
  /-- RUN (R34) -/
  run : RunStatus
  /-- FAULT, valid when RUN is HALTED (R34) -/
  fault : Option FaultRecord
  /-- BATCHCNT; stays 0 where it does not exist (R36, notes/assumptions/12.md) -/
  batchCnt : Nat
  /-- the output redraw_req of the last step (R37, R128) -/
  redrawReq : Bool
  /-- the output waiting: the last step was a wait-for-key that found no key (R37, R243) -/
  waiting : Bool
  /-- numbers the samples of the free inputs keys and tick (notes/assumptions/3.md, 5.md) -/
  stepNo : Nat
  /-- numbers the samples of the free input rnd (notes/assumptions/4.md) -/
  rndNo : Nat
deriving DecidableEq, Repr

/-- Why a step stops. -/
inductive Fault where
  /-- Raised by `step` alone, when RUN is HALTED: "No later step or tick is enabled" (R126, R34, R283), so there is no next state.
  Safe: the hardware makes no step either. -/
  | halted
deriving DecidableEq, Repr

/-- Why an instruction has no meaning. -/
inductive Refusal where
  /-- Raised by an arm of `exec` whose instruction has no meaning yet; no arm raises it now. Safe: nothing is claimed of the
  instruction. -/
  | notModelled (mnemonic : String)
deriving DecidableEq, Repr

/-- The state after reset of a machine with parameters `c` and an empty program image (R38, R310): memory lists nothing, so it
reads as the font and INIT_MEM (R311). -/
def State.resetWith (c : Config) : State where
  cfg := c
  mem := []
  v := Vector.replicate 16 0
  i := 0
  pc := 0x200
  sp := 0
  stack := Vector.replicate 128 0
  dt := 0
  st := 0
  keys := 0
  mode := .low
  disp := List.replicate 2048 false
  run := .running
  fault := none
  batchCnt := 0
  redrawReq := false
  waiting := false
  stepNo := 0
  rndNo := 0

/-- The state right after reset, with the parameters at the defaults of R5 (R38, R310). -/
def State.reset : State := State.resetWith Config.default

end Sys2Proof.Machine
end

