-- ==== Sys2Proof/Machine/Ops.lean ====
section
/-! DEFINITION. The named operations over memory, registers, the stack, the timers, the display and the ports; taking a fault; the
shared parts of an instruction step. Every read and write of the machine goes through them. -/

namespace Sys2Proof.Machine

/-- A sparse memory: (address, byte) pairs. -/
abbrev Memory := List Host.Cell

/-- What an address not listed in memory reads as: the reset content, a font byte at FONT_BASE .. FONT_BASE+79 and INIT_MEM
elsewhere (R61, R311, notes/assumptions/2.md). -/
def Memory.background (c : Config) (a : Nat) : Byte :=
  if c.fontBase ≤ a ∧ a < c.fontBase + 80 then c.fontGlyphs.getD (a - c.fontBase) 0 else c.initMem.getD a 0

/-- The byte listed for an address. -/
def Memory.lookup : Memory → Nat → Option Byte
  | [], _ => none
  | (k, b) :: m, a => if k = a then some b else Memory.lookup m a

/-- Store `b` at `a`, keeping addresses rising; `bg` is what `a` reads as when unlisted, and writing it removes the entry. -/
def Memory.write (bg : Byte) : Memory → Nat → Byte → Memory
  | [], a, b => if b = bg then [] else [(a, b)]
  | (k, old) :: m, a, b =>
    if a < k then (if b = bg then (k, old) :: m else (a, b) :: (k, old) :: m)
    else if a = k then (if b = bg then m else (a, b) :: m)
    else (k, old) :: Memory.write bg m a b

/-- The canonical form of memory: addresses strictly rising and below 4096 (R60), no entry equal to the reset content. -/
abbrev Memory.wf (c : Config) (m : Memory) : Prop :=
  m.Pairwise (fun p q => p.1 < q.1) ∧ ∀ p ∈ m, p.1 < 4096 ∧ p.2 ≠ Memory.background c p.1

/-- The byte of MEM at an address (R62). -/
def State.byteAt (s : State) (a : Nat) : Byte := (Memory.lookup s.mem a).getD (Memory.background s.cfg a)

/-- `MemWrite(addr, 1, v)` at an address in range (R62). -/
def State.putByte (s : State) (a : Nat) (b : Byte) : State :=
  { s with mem := Memory.write (Memory.background s.cfg a) s.mem a b }

/-- Bytes stored at ascending addresses from `a` (R66). -/
def State.putBytes (s : State) (a : Nat) : List Byte → State
  | [] => s
  | b :: bs => State.putBytes (s.putByte a b) (a + 1) bs

/-- `V[r]` (R21). -/
def State.reg (s : State) (r : Reg) : Byte := s.v[r.val]

/-- `V[r] <- b` (R21). -/
def State.setReg (s : State) (r : Reg) (b : Byte) : State := { s with v := s.v.set r.val b r.isLt }

/-- `V[r] <- b` when `c` holds. -/
def State.setRegIf (s : State) (c : Bool) (r : Reg) (b : Byte) : State :=
  { s with v := if c then s.v.set r.val b r.isLt else s.v }

/-- `I <- w` (R24). -/
def State.setI (s : State) (w : Word) : State := { s with i := w }

/-- `PC <- w` (R26). -/
def State.setPc (s : State) (w : Word) : State := { s with pc := w }

/-- `PC <- PC + 2`, before an instruction's effect (R124). -/
def State.advance (s : State) : State := { s with pc := s.pc + 2 }

/-- `PC <- PC + 2` when the condition of a skip holds (R26, R167). -/
def State.skipIf (s : State) (c : Bool) : State := { s with pc := if c then s.pc + 2 else s.pc }

/-- `PC <- PC - 2`, and the output `waiting`: a wait-for-key that found no key (R242, R243, R37). -/
def State.rewind (s : State) : State := { s with pc := s.pc - 2, waiting := true }

/-- `STACK[SP] <- w; SP <- SP + 1`, for `SP < 128` (R28, R162). -/
def State.push (s : State) (w : Word) : State :=
  { s with stack := s.stack.setIfInBounds s.sp.val w, sp := ⟨min (s.sp.val + 1) 128, by omega⟩ }

/-- `SP <- SP - 1; PC <- STACK[SP]`, for `SP > 0` (R28, R160). -/
def State.pop (s : State) : State :=
  { s with sp := ⟨s.sp.val - 1, by omega⟩, pc := s.stack[s.sp.val - 1]'(by omega) }

/-- `DT <- w` (R29). -/
def State.setDt (s : State) (w : BitVec 16) : State := { s with dt := w }

/-- `ST <- w` (R39). -/
def State.setSt (s : State) (w : BitVec 16) : State := { s with st := w }

/-- The fresh byte of the input `rnd` (R8, R211). -/
def State.rnd (s : State) : Byte := Config.rndPort s.rndNo

/-- The sample of `rnd` is used up (R211: "sampled exactly once per executed random-AND-mask instruction"). -/
def State.tookRnd (s : State) : State := { s with rndNo := s.rndNo + 1 }

/-- COLS of a mode (R8, R31). -/
def Mode.cols : Mode → Nat
  | .low => 64
  | .high => 128

/-- ROWS of a mode (R8, R31). -/
def Mode.rows : Mode → Nat
  | .low => 32
  | .high => 64

/-- `Pixel(c, r)` is `DISP[r * COLS + c]` (R8, R32). -/
def State.pixel (s : State) (c r : Nat) : Bool := s.disp.getD (r * s.mode.cols + c) false

/-- DISP replaced, all cells at once (R65). -/
def State.setDisp (s : State) (d : List Bool) : State := { s with disp := d }

/-- `MODE <- m`, DISP reallocated to the size of `m` and all false (R32, R141, R142). -/
def State.switchMode (s : State) (m : Mode) : State :=
  { s with mode := m, disp := List.replicate (m.cols * m.rows) false }

/-- Every cell of a display buffer mapped with its index. -/
def mapCells (f : Nat → Bool → Bool) (d : List Bool) : List Bool := d.zipIdx.map fun p => f p.2 p.1

/-- The output redraw_req is asserted (R128). -/
def State.redraw (s : State) : State := { s with redrawReq := true }

/-- TAKING A FAULT (R282, R126): RUN <- HALTED, FAULT <- (kind, info, PC of the faulting instruction, its word); all other state
keeps its value. `s` is the state before the instruction, its PC not advanced. There is no return from a fault (R283). -/
def State.raise (s : State) (kind : FaultKind) (info : Nat) (word : Option Word) : State :=
  { s with run := .halted, fault := some ⟨kind, info, s.pc, word⟩ }

/-- The range check of R62 over an instruction's whole extent, before any write: `t` when the highest address `last` exists, else
the fault `AddressOutOfRange(last)` of instruction `ins` in `s` (R274). -/
def State.ifInRange (s : State) (ins : Instr) (last : Nat) (t : State) : State :=
  if last ≤ 4095 then t else s.raise .addressOutOfRange last (some (encode ins))

/-- `MemRead(PC, 2)` (R123, R62): the word at PC, high byte first; `none` when PC + 1 is above 4095. -/
def State.fetch (s : State) : Option Word :=
  if s.pc.toNat + 1 ≤ 4095 then some (wordOfBytes (s.byteAt s.pc.toNat) (s.byteAt (s.pc.toNat + 1))) else none

/-- A timer after one tick: "floors at zero and is never negative" (R127, R29). -/
def tickDown (t : BitVec 16) : BitVec 16 := if t = 0 then 0 else t - 1

/-- One tick (R127): DT, and ST where it exists, count down to a floor of zero; nothing else changes. -/
def State.tick (s : State) : State :=
  { s with dt := tickDown s.dt, st := if s.cfg.hasSoundTimer then tickDown s.st else s.st }

/-- `n` ticks in a row (R127). -/
def State.ticks (s : State) (n : Nat) : State :=
  { s with dt := BitVec.ofNat 16 (s.dt.toNat - n)
           st := if s.cfg.hasSoundTimer then BitVec.ofNat 16 (s.st.toNat - n) else s.st }

/-- How many ticks occur between the last step and the coming one: any number when TICK_BATCH = none, none otherwise (R127). -/
def State.ticksDue (s : State) : Nat :=
  match s.cfg.tickBatch with
  | none => Config.ticksBefore s.stepNo
  | some _ => 0

/-- What precedes the fetch: the ticks since the last step (R127), the key refresh (R121 step 1, R122), and the outputs of the last
step ending (R37, R128). -/
def State.beginStep (s : State) : State :=
  { s.ticks s.ticksDue with
    keys := Config.keysPort s.stepNo, redrawReq := false, waiting := false, stepNo := s.stepNo + 1 }

/-- R121 step 7: under TICK_BATCH = n a completed step counts, and the n-th ticks; "a faulting step does not count" (R127). -/
def State.finishStep (s : State) : State :=
  match s.run, s.cfg.tickBatch with
  | .running, some n => if s.batchCnt + 1 = n then { s.tick with batchCnt := 0 } else { s with batchCnt := s.batchCnt + 1 }
  | .running, none => s
  | .halted, _ => s

/-- The program image laid over memory, byte k at 0x200 + k (R311). -/
def State.loadImage (s : State) (image : List Byte) : State := s.putBytes 0x200 image

/-- The host's reset with a program image (R310, R311): `none` is the load-time fault of an image longer than 3584 bytes, raised by
the loader; the core then never starts (R312, R276). -/
def State.boot (c : Config) (image : List Byte) : Option State :=
  if image.length ≤ 3584 then some ((State.resetWith c).loadImage image) else none

end Sys2Proof.Machine
end

