-- ==== Sys2Proof/Machine/Flags.lean ====
section
/-! DEFINITION. The status register VF and the values written to it as status (10_state R22, R23). -/

namespace Sys2Proof.Machine

/-- VF = V[15], the status register (R22). -/
def regF : Reg := 15

/-- A status value, 1 or 0. -/
def flagByte (c : Bool) : Byte := if c then 1 else 0

/-- ADD: 1 iff the pre-truncation sum exceeds 255 (R193). -/
def carryFlag (a b : Byte) : Byte := flagByte (decide (a.toNat + b.toNat > 255))

/-- SUB and SUB-reverse: 1 iff the minuend strictly exceeds the subtrahend (R194, R195). -/
def greaterFlag (minuend subtrahend : Byte) : Byte := flagByte (decide (minuend.toNat > subtrahend.toNat))

/-- SHIFT-right: the shifted-out low bit (R196). -/
def lowBitFlag (a : Byte) : Byte := flagByte (a.getLsbD 0)

/-- SHIFT-left: the shifted-out high bit (R197). -/
def highBitFlag (a : Byte) : Byte := flagByte (a.getLsbD 7)

/-- The status write and then the result write (R23): with X = 15 the result is what remains in VF. -/
def State.setStatusThenReg (s : State) (flag : Byte) (x : Reg) (result : Byte) : State :=
  (s.setReg regF flag).setReg x result

end Sys2Proof.Machine
end

