-- ==== Sys2Proof/Machine/Operands.lean ====
section
/-! DEFINITION. The operand forms (30_encoding R94): registers named by X and Y, zero-extended immediates, the register ranges of
the memory transfers, the shifted register, the key index, and the extent of a sprite. -/

namespace Sys2Proof.Machine

/-- `zext_16(NNN)` (R94). -/
def zextAddr (nnn : Addr) : Word := nnn.setWidth 16

/-- `zext_16(v)` of a byte (R94). -/
def zextByte (b : Byte) : Word := b.setWidth 16

/-- The general registers in ascending order. -/
def allRegs : List Reg := [0, 1, 2, 3, 4, 5, 6, 7, 8, 9, 10, 11, 12, 13, 14, 15]

/-- Registers 0..X in ascending order (R256, R257). -/
def regsUpTo (x : Reg) : List Reg := allRegs.filter fun r => decide (r.val ≤ x.val)

/-- The value that SHIFT-right and SHIFT-left shift: V[X], or V[Y] when P_SHIFT_SRC = Y (R196, R197). -/
def State.shiftOperand (s : State) (x y : Reg) : Byte :=
  match s.cfg.shiftSrc with
  | .x => s.reg x
  | .y => s.reg y

/-- `KEYS[k] = 1` (R30). -/
def keyDown (keys : BitVec 16) (k : Nat) : Bool := keys.getLsbD k

/-- The largest k in 0..15 with KEYS[k] = 1 (R242). -/
def highestKey (keys : BitVec 16) : Option Nat :=
  [15, 14, 13, 12, 11, 10, 9, 8, 7, 6, 5, 4, 3, 2, 1, 0].find? (keyDown keys)

/-- `FONT_BASE + 5 * zext_16(V[X])` (R253): the whole 8-bit value, not masked. -/
def State.glyphAddress (s : State) (x : Reg) : Word := BitVec.ofNat 16 (s.cfg.fontBase + 5 * (s.reg x).toNat)

/-- W, the width of a sprite in pixels (R220, R221). -/
def spriteWidth (n : Nibble) : Nat := if n = 0 then 16 else 8

/-- H, the height of a sprite in rows (R220, R221). -/
def spriteHeight (n : Nibble) : Nat := if n = 0 then 16 else n.toNat

/-- B, the bytes of a sprite row (R220, R221). -/
def spriteRowBytes (n : Nibble) : Nat := if n = 0 then 2 else 1

/-- The highest address a sprite reads, `I + H*B - 1` (R220, R225). -/
def State.spriteLast (s : State) (n : Nibble) : Nat := s.i.toNat + spriteHeight n * spriteRowBytes n - 1

/-- x0, the anchor column (R220, R223). -/
def State.anchorCol (s : State) (x : Reg) : Nat := (s.reg x).toNat % s.mode.cols

/-- y0, the anchor row (R220, R223). -/
def State.anchorRow (s : State) (y : Reg) : Nat := (s.reg y).toNat % s.mode.rows

/-- The sprite's bit at column offset `col` and row offset `row` (R222): the most significant bit is the leftmost pixel, the byte at
the lower address covers the left 8 columns, and rows go downward from I. -/
def State.spriteBit (s : State) (n : Nibble) (col row : Nat) : Bool :=
  (s.byteAt (s.i.toNat + row * spriteRowBytes n + col / 8)).getLsbD (7 - col % 8)

/-- A set sprite bit of `DRW Vx, Vy, N` lands on the cell at column `c` and row `r` (R220, R223). -/
def State.spriteHits (s : State) (x y : Reg) (n : Nibble) (c r : Nat) : Bool :=
  decide (s.anchorCol x ≤ c) && decide (c < s.anchorCol x + spriteWidth n)
    && decide (s.anchorRow y ≤ r) && decide (r < s.anchorRow y + spriteHeight n)
    && s.spriteBit n (c - s.anchorCol x) (r - s.anchorRow y)

end Sys2Proof.Machine
end

