-- ==== Sys2Proof/Machine/Arith.lean ====
section
/-! DEFINITION. The register arithmetic family (44_arithmetic R190 to R200). Operands are latched before any write; where there is a
status, it is written to VF before the result is written to V[X] (R23). -/

namespace Sys2Proof.Machine

/-- OR (R190); VF is not written as status. -/
def execOr (x y : Reg) (s : State) : Host.Outcome State Fault Refusal :=
  .next (s.advance.setReg x (s.reg x ||| s.reg y))

/-- AND (R191); VF is not written as status. -/
def execAnd (x y : Reg) (s : State) : Host.Outcome State Fault Refusal :=
  .next (s.advance.setReg x (s.reg x &&& s.reg y))

/-- XOR (R192); VF is not written as status. -/
def execXor (x y : Reg) (s : State) : Host.Outcome State Fault Refusal :=
  .next (s.advance.setReg x (s.reg x ^^^ s.reg y))

/-- ADD (R193): VF <- carry, V[X] <- (V[X] + V[Y]) mod 256. -/
def execAddReg (x y : Reg) (s : State) : Host.Outcome State Fault Refusal :=
  .next (s.advance.setStatusThenReg (carryFlag (s.reg x) (s.reg y)) x (s.reg x + s.reg y))

/-- SUB (R194): VF <- V[X] > V[Y], V[X] <- (V[X] - V[Y]) mod 256. -/
def execSub (x y : Reg) (s : State) : Host.Outcome State Fault Refusal :=
  .next (s.advance.setStatusThenReg (greaterFlag (s.reg x) (s.reg y)) x (s.reg x - s.reg y))

/-- SUB-reverse (R195): VF <- V[Y] > V[X], V[X] <- (V[Y] - V[X]) mod 256. -/
def execSubn (x y : Reg) (s : State) : Host.Outcome State Fault Refusal :=
  .next (s.advance.setStatusThenReg (greaterFlag (s.reg y) (s.reg x)) x (s.reg y - s.reg x))

/-- SHIFT-right (R196): VF <- bit 0 of the shifted value, V[X] <- it shifted right by 1. -/
def execShr (x y : Reg) (s : State) : Host.Outcome State Fault Refusal :=
  .next (s.advance.setStatusThenReg (lowBitFlag (s.shiftOperand x y)) x (s.shiftOperand x y >>> 1))

/-- SHIFT-left (R197): VF <- bit 7 of the shifted value, V[X] <- it shifted left by 1, modulo 256. -/
def execShl (x y : Reg) (s : State) : Host.Outcome State Fault Refusal :=
  .next (s.advance.setStatusThenReg (highBitFlag (s.shiftOperand x y)) x (s.shiftOperand x y <<< 1))

/-- register move (R198): V[X] <- V[Y]. That the row exists only when P_HAS_MOV is checked at dispatch (`dispatch`, R97). -/
def execMovReg (x y : Reg) (s : State) : Host.Outcome State Fault Refusal :=
  .next (s.advance.setReg x (s.reg y))

end Sys2Proof.Machine
end

