-- ==== Sys2Proof/Machine/Control.lean ====
section
/-! DEFINITION. Control flow (42_control_flow R160 to R169). PC is advanced before the effect (R124), so targets are absolute, a call
saves the address of the instruction after it, and a taken skip lands 4 bytes after its own address (R167). -/

namespace Sys2Proof.Machine

/-- return (R160): StackUnderflow on an empty stack, else pop into PC. -/
def execRet (s : State) : Host.Outcome State Fault Refusal :=
  .next (if s.sp = 0 then s.raise .stackUnderflow s.sp.val (some (encode .ret)) else s.advance.pop)

/-- jump (R161): PC <- zext_16(NNN). -/
def execJp (nnn : Addr) (s : State) : Host.Outcome State Fault Refusal :=
  .next (s.advance.setPc (zextAddr nnn))

/-- call (R162): StackOverflow with 128 saved entries, else push the advanced PC and PC <- zext_16(NNN). -/
def execCall (nnn : Addr) (s : State) : Host.Outcome State Fault Refusal :=
  .next (if s.sp = 128 then s.raise .stackOverflow s.sp.val (some (encode (.call nnn)))
    else (s.advance.push s.advance.pc).setPc (zextAddr nnn))

/-- skip-if-equal-immediate (R163). -/
def execSeImm (x : Reg) (kk : Byte) (s : State) : Host.Outcome State Fault Refusal :=
  .next (s.advance.skipIf (s.reg x == kk))

/-- skip-if-not-equal-immediate (R164). -/
def execSneImm (x : Reg) (kk : Byte) (s : State) : Host.Outcome State Fault Refusal :=
  .next (s.advance.skipIf (s.reg x != kk))

/-- skip-if-registers-equal (R165). -/
def execSeReg (x y : Reg) (s : State) : Host.Outcome State Fault Refusal :=
  .next (s.advance.skipIf (s.reg x == s.reg y))

/-- skip-if-registers-not-equal (R166). -/
def execSneReg (x y : Reg) (s : State) : Host.Outcome State Fault Refusal :=
  .next (s.advance.skipIf (s.reg x != s.reg y))

/-- jump-with-offset (R168): PC <- zext_16(NNN) + zext_16(V[0]), no reduction. -/
def execJpV0 (nnn : Addr) (s : State) : Host.Outcome State Fault Refusal :=
  .next (s.advance.setPc (zextAddr nnn + zextByte (s.reg 0)))

end Sys2Proof.Machine
end

