-- ==== Sys2Proof/Machine/Draw.lean ====
section
/-! DEFINITION. draw-sprite (46_draw_sprite R220 to R227). The buffer is written cell by cell, each cell toggled when a set sprite
bit lands on it; "each cell is toggled at most once per instruction and the order of the loops cannot affect the result" (R223). The
loops of R220 as they are written stand in Machine/DrawLoop.lean. -/

namespace Sys2Proof.Machine

/-- DISP after the sprite is composited (R220): a cell a set sprite bit lands on is toggled, every other cell is kept. -/
def State.spriteDrawn (s : State) (x y : Reg) (n : Nibble) : List Bool :=
  mapCells (fun k b => b != s.spriteHits x y n (k % s.mode.cols) (k / s.mode.cols)) s.disp

/-- `collided` (R220, R224): some set sprite bit landed on a cell that was set. -/
def State.spriteCollides (s : State) (x y : Reg) (n : Nibble) : Bool :=
  s.disp.zipIdx.any fun p => p.1 && s.spriteHits x y n (p.2 % s.mode.cols) (p.2 / s.mode.cols)

/-- The effect of draw-sprite once its extent is in range (R220, R224): VF <- 0 first only when P_DRAW_RESETS_VF, the buffer, VF <- 1
on a collision, and the redraw request. Operands are those before the instruction. -/
def State.drawSprite (s : State) (x y : Reg) (n : Nibble) : State :=
  (((s.advance.setRegIf s.cfg.drawResetsVf regF 0).setDisp (s.spriteDrawn x y n)).setRegIf (s.spriteCollides x y n) regF 1).redraw

/-- draw-sprite (R220): AddressOutOfRange when the extent passes 4095 (R225), before any change. -/
def execDrw (x y : Reg) (n : Nibble) (s : State) : Host.Outcome State Fault Refusal :=
  .next (s.ifInRange (.drw x y n) (s.spriteLast n) (s.drawSprite x y n))

end Sys2Proof.Machine
end

