-- ==== Sys2Proof/Machine/Immediate.lean ====
section
/-! DEFINITION. Immediate instructions (43_immediate R180 to R182). -/

namespace Sys2Proof.Machine

/-- load-immediate (R180): V[X] <- KK. -/
def execLdImm (x : Reg) (kk : Byte) (s : State) : Host.Outcome State Fault Refusal :=
  .next (s.advance.setReg x kk)

/-- add-immediate (R181): V[X] <- (V[X] + KK) mod 256, no flag. -/
def execAddImm (x : Reg) (kk : Byte) (s : State) : Host.Outcome State Fault Refusal :=
  .next (s.advance.setReg x (s.reg x + kk))

end Sys2Proof.Machine
end

