-- ==== Sys2Proof/Machine/IndexRandom.lean ====
section
/-! DEFINITION. set-index and random-AND-mask (45_index_random R210 to R212). -/

namespace Sys2Proof.Machine

/-- set-index (R210): I <- zext_16(NNN). -/
def execLdI (nnn : Addr) (s : State) : Host.Outcome State Fault Refusal :=
  .next (s.advance.setI (zextAddr nnn))

/-- random-AND-mask (R211): V[X] <- rnd & KK, `rnd` a free input sampled once. -/
def execRnd (x : Reg) (kk : Byte) (s : State) : Host.Outcome State Fault Refusal :=
  .next (s.advance.tookRnd.setReg x (s.rnd &&& kk))

end Sys2Proof.Machine
end

