-- ==== Sys2Proof/Machine/Keys.lean ====
section
/-! DEFINITION. Key instructions (47_keys R240 to R244). They read KEYS, refreshed at the start of the same step (R122). -/

namespace Sys2Proof.Machine

/-- A key skip on `V[X]` (R240, R241): KeyIndexOutOfRange when the index is above 15, else skip when the key's state is `down`. -/
def State.keySkip (s : State) (ins : Instr) (x : Reg) (down : Bool) : State :=
  if 15 < (s.reg x).toNat then s.raise .keyIndexOutOfRange (s.reg x).toNat (some (encode ins))
  else s.advance.skipIf (keyDown s.keys (s.reg x).toNat == down)

/-- skip-if-key-pressed (R240). -/
def execSkp (x : Reg) (s : State) : Host.Outcome State Fault Refusal :=
  .next (s.keySkip (.skp x) x true)

/-- skip-if-key-not-pressed (R241). -/
def execSknp (x : Reg) (s : State) : Host.Outcome State Fault Refusal :=
  .next (s.keySkip (.sknp x) x false)

/-- wait-for-key (R242, R243): with no key latched PC goes back to this instruction, else V[X] <- the highest latched key. -/
def execLdVxK (x : Reg) (s : State) : Host.Outcome State Fault Refusal :=
  .next (match highestKey s.keys with
    | none => s.advance.rewind
    | some k => s.advance.setReg x (BitVec.ofNat 8 k))

end Sys2Proof.Machine
end

