-- ==== Sys2Proof/Machine/Screen.lean ====
section
/-! DEFINITION. Screen control (41_screen_control R140 to R146): clear-screen, the resolution switches, the scrolls. -/

namespace Sys2Proof.Machine

/-- DISP shifted down by `n` rows of `cols` cells (R143): in the flat row-major buffer, `n * cols` false cells before the old ones,
cut to the old size. -/
def shiftDown (cols n : Nat) (d : List Bool) : List Bool := (List.replicate (n * cols) false ++ d).take d.length

/-- DISP shifted right by 4 cells (R144): the cell 4 before it, and false in the first 4 columns of a row. -/
def shiftRight (cols : Nat) (d : List Bool) : List Bool :=
  mapCells (fun k b => decide (4 ≤ k % cols) && b) ((List.replicate 4 false ++ d).take d.length)

/-- DISP shifted left by 4 cells (R145): the cell 4 after it, and false in the last 4 columns of a row. -/
def shiftLeft (cols : Nat) (d : List Bool) : List Bool :=
  mapCells (fun k b => decide (k % cols + 4 < cols) && b) ((d ++ List.replicate 4 false).drop 4)

/-- clear-screen (R140): "Set every display cell false; request redraw." -/
def execCls (s : State) : Host.Outcome State Fault Refusal :=
  .next (s.advance.setDisp (List.replicate (s.mode.cols * s.mode.rows) false)).redraw

/-- set-low-res (R141): MODE <- LOW, 2048 cells, all false, whatever the previous mode. -/
def execLow (s : State) : Host.Outcome State Fault Refusal :=
  .next (s.advance.switchMode .low)

/-- set-high-res (R142): MODE <- HIGH, 8192 cells, all false, whatever the previous mode. -/
def execHigh (s : State) : Host.Outcome State Fault Refusal :=
  .next (s.advance.switchMode .high)

/-- scroll-down by N rows of the active grid (R143). -/
def execScd (n : Nibble) (s : State) : Host.Outcome State Fault Refusal :=
  .next (s.advance.setDisp (shiftDown s.mode.cols n.toNat s.disp))

/-- scroll-right by 4 columns (R144). -/
def execScr (s : State) : Host.Outcome State Fault Refusal :=
  .next (s.advance.setDisp (shiftRight s.mode.cols s.disp))

/-- scroll-left by 4 columns (R145). -/
def execScl (s : State) : Host.Outcome State Fault Refusal :=
  .next (s.advance.setDisp (shiftLeft s.mode.cols s.disp))

end Sys2Proof.Machine
end

