-- ==== Sys2Proof/Machine/TimerMemory.lean ====
section
/-! DEFINITION. Timer, index and memory-transfer instructions (48_timer_index_memory R250 to R259). -/

namespace Sys2Proof.Machine

/-- get-delay-timer (R250): V[X] <- DT[7:0]. -/
def execLdVxDt (x : Reg) (s : State) : Host.Outcome State Fault Refusal :=
  .next (s.advance.setReg x (s.dt.setWidth 8))

/-- set-delay-timer (R251): DT <- zext_16(V[X]). -/
def execLdDtVx (x : Reg) (s : State) : Host.Outcome State Fault Refusal :=
  .next (s.advance.setDt (zextByte (s.reg x)))

/-- add-to-index (R252): VF <- 1 when the sum reaches 4096, else VF is not written; I <- the sum modulo 4096. -/
def execAddI (x : Reg) (s : State) : Host.Outcome State Fault Refusal :=
  .next ((s.advance.setRegIf (decide (s.i.toNat + (s.reg x).toNat ≥ 4096)) regF 1).setI
    (BitVec.ofNat 16 ((s.i.toNat + (s.reg x).toNat) % 4096)))

/-- set-index-to-font-glyph (R253): I <- FONT_BASE + 5 * V[X]. -/
def execLdF (x : Reg) (s : State) : Host.Outcome State Fault Refusal :=
  .next (s.advance.setI (s.glyphAddress x))

/-- The three digits of a byte, hundreds first (R254). -/
def bcdDigits (b : Byte) : List Byte :=
  [BitVec.ofNat 8 (b.toNat / 100), BitVec.ofNat 8 (b.toNat / 10 % 10), BitVec.ofNat 8 (b.toNat % 10)]

/-- binary-coded-decimal (R254): the digits of V[X] to I, I+1, I+2, or AddressOutOfRange(I+2) before any write. -/
def execLdB (x : Reg) (s : State) : Host.Outcome State Fault Refusal :=
  .next (s.ifInRange (.ldB x) (s.i.toNat + 2) (s.advance.putBytes s.i.toNat (bcdDigits (s.reg x))))

/-- store-registers (R256, R255): V[0..X] to I .. I+X ascending, or AddressOutOfRange(I+X) before any write; I unchanged. -/
def execStRegs (x : Reg) (s : State) : Host.Outcome State Fault Refusal :=
  .next (s.ifInRange (.stRegs x) (s.i.toNat + x.val) (s.advance.putBytes s.i.toNat ((regsUpTo x).map s.reg)))

/-- load-registers (R257, R255): V[0..X] from I .. I+X ascending, or AddressOutOfRange(I+X) before any write; I unchanged. -/
def execLdRegs (x : Reg) (s : State) : Host.Outcome State Fault Refusal :=
  .next (s.ifInRange (.ldRegs x) (s.i.toNat + x.val)
    ((regsUpTo x).foldl (fun t r => t.setReg r (s.byteAt (s.i.toNat + r.val))) s.advance))

/-- set-sound-timer (R258): ST <- zext_16(V[X]). That the row exists only when P_HAS_SOUND_TIMER is checked at dispatch (`dispatch`,
R97). -/
def execLdStVx (x : Reg) (s : State) : Host.Outcome State Fault Refusal :=
  .next (s.advance.setSt (zextByte (s.reg x)))

end Sys2Proof.Machine
end

