-- ==== Sys2Proof/Machine/Step.lean ====
section
/-! DEFINITION. One instruction step (40_execution_cycle R121), with the ticks that precede it (R127). -/

namespace Sys2Proof.Machine

/-- R121 steps 3 to 7 for the fetched word: dispatch, the effect or UnmappedOpcode(word) (R271), and the batch count. -/
def runWord (s : State) (w : Word) : Host.Outcome State Fault Refusal :=
  match dispatch s.cfg w with
  | .unmapped _ => .next (s.raise .unmappedOpcode w.toNat (some w))
  | .instr ins =>
    match exec ins s with
    | .next t => .next t.finishStep
    | .fault f => .fault f
    | .refused r => .refused r

/-- One step: enabled only while RUN = RUNNING (R34, R121); the ticks since the last step and the key refresh; the fetch, which may
raise AddressOutOfRange(PC + 1) with no word recorded (R123); the instruction. -/
def step (s : State) : Host.Outcome State Fault Refusal :=
  match s.run with
  | .halted => .fault .halted
  | .running =>
    match s.beginStep.fetch with
    | none => .next (s.beginStep.raise .addressOutOfRange (s.pc.toNat + 1) none)
    | some w => runWord s.beginStep w

/-- `s` with the instruction whose bits are `w` (numbered as spec/opcode_table.json numbers them, the bits above `nbits` zero) stored
at PC and PC + 1, high byte first (R63), where `step` fetches it. Where PC + 1 does not exist nothing is stored. -/
def State.withFetchWord (s : State) (nbits w : Nat) : State :=
  let word : Word := BitVec.ofNat 16 (w % 2 ^ nbits)
  if s.pc.toNat + 1 ≤ 4095 then s.putBytes s.pc.toNat [highByte word, lowByte word] else s

end Sys2Proof.Machine
end

