-- ==== Sys2Proof/Machine/DrawLoop.lean ====
section
/-! DEFINITION. The two nested loops of draw-sprite as 46_draw_sprite R220 writes them, for the claim that the machine's
cell-by-cell form (Machine/Draw.lean) is what they compute. No instruction calls them. -/

namespace Sys2Proof.Machine

/-- The loop's variables: the buffer being written, and `collided`. -/
structure DrawLoopState where
  disp : List Bool
  collided : Bool
deriving DecidableEq, Repr

/-- The body of R220's inner loop at (row, col): when the sprite bit is set and the cell is on the grid, a set cell becomes false and
`collided` true, a clear cell becomes true. The sprite's bytes and the anchor are those of `s`, before the instruction. -/
def drawLoopBody (s : State) (x y : Reg) (n : Nibble) (row : Nat) (a : DrawLoopState) (col : Nat) : DrawLoopState :=
  if s.spriteBit n col row then
    let c := s.anchorCol x + col
    let r := s.anchorRow y + row
    if c < s.mode.cols ∧ r < s.mode.rows then
      let k := r * s.mode.cols + c
      if a.disp.getD k false then { disp := a.disp.set k false, collided := true }
      else { a with disp := a.disp.set k true }
    else a
  else a

/-- R220's loops: `for row in 0..H-1: for col in 0..W-1`. -/
def drawLoop (s : State) (x y : Reg) (n : Nibble) : DrawLoopState :=
  (List.range (spriteHeight n)).foldl
    (fun a row => (List.range (spriteWidth n)).foldl (drawLoopBody s x y n row) a) { disp := s.disp, collided := false }

end Sys2Proof.Machine
end

