-- ==== Sys2Proof/Safety.lean ====
section
/-! DEFINITION. The terms claims use: the invariant of the machine, what an instruction leaves unchanged, what taking a fault does,
the sprite of draw-sprite in the words of 46_draw_sprite R220, and the settled states of 40_execution_cycle R129. -/

namespace Sys2Proof.Machine

/-- The invariant of the machine: what the spec says holds of every reachable state. -/
structure State.Inv (s : State) : Prop where
  /-- the parameters are allowed values (R5) -/
  cfgWf : s.cfg.wf = true
  /-- memory is in canonical form and has no address above 4095 (R60) -/
  memWf : Memory.wf s.cfg s.mem
  /-- `I <= 4095` (R24) -/
  indexInRange : s.i.toNat ≤ 4095
  /-- the largest value PC can take is 0x10FE (R26) -/
  pcInRange : s.pc.toNat ≤ 0x10FE
  /-- the largest saved value is 0x1000 (R26, R162) -/
  stackInRange : ∀ (k : Nat) (h : k < 128), s.stack[k].toNat ≤ 0x1000
  /-- `DT <= 255` (R29) -/
  dtInRange : s.dt.toNat ≤ 255
  /-- ST is loaded and counted as DT is (R39) -/
  stInRange : s.st.toNat ≤ 255
  /-- ST does not exist unless P_HAS_SOUND_TIMER (R39) -/
  stAbsent : s.cfg.hasSoundTimer = false → s.st = 0
  /-- the size of DISP "is exactly columns × rows for the active resolution mode" (R32) -/
  dispSize : s.disp.length = s.mode.cols * s.mode.rows
  /-- there is a fault record exactly when the core is halted (R34) -/
  faultWhenHalted : s.run = .halted ↔ s.fault.isSome
  /-- BATCHCNT is in 0..n-1 under TICK_BATCH = n, and does not exist otherwise (R36) -/
  batchInRange : ∀ n, s.cfg.tickBatch = some n → s.batchCnt < n
  batchAbsent : s.cfg.tickBatch = none → s.batchCnt = 0

/-- Every general register outside `ws` is unchanged. -/
def SameRegsBut (ws : List Reg) (s t : State) : Prop := ∀ r : Reg, r ∉ ws → t.reg r = s.reg r

/-- Every byte of memory is unchanged. -/
def SameMemory (s t : State) : Prop := ∀ a : Nat, t.byteAt a = s.byteAt a

/-- Every byte of memory outside the `n` bytes from `base` is unchanged. -/
def SameMemoryBut (base n : Nat) (s t : State) : Prop := ∀ a : Nat, a < base ∨ base + n ≤ a → t.byteAt a = s.byteAt a

/-- The stack pointer and the call stack are unchanged. -/
def SameStack (s t : State) : Prop := t.sp = s.sp ∧ t.stack = s.stack

/-- The timers and the batch counter are unchanged. -/
def SameTimers (s t : State) : Prop := t.dt = s.dt ∧ t.st = s.st ∧ t.batchCnt = s.batchCnt

/-- The mode and the display buffer are unchanged. -/
def SameDisplay (s t : State) : Prop := t.mode = s.mode ∧ t.disp = s.disp

/-- The run status and the fault record are unchanged: the instruction raised no fault. -/
def SameRun (s t : State) : Prop := t.run = s.run ∧ t.fault = s.fault

/-- The parameters, the key latch and the numbers of the input samples are unchanged. -/
def SameInputs (s t : State) : Prop := t.cfg = s.cfg ∧ t.keys = s.keys ∧ t.stepNo = s.stepNo ∧ t.rndNo = s.rndNo

/-- The outputs redraw_req and waiting are unchanged. -/
def SameOutputs (s t : State) : Prop := t.redrawReq = s.redrawReq ∧ t.waiting = s.waiting

/-- Nothing changes but PC and the general registers in `ws`. -/
def OnlyPcAndRegs (ws : List Reg) (s t : State) : Prop :=
  SameRegsBut ws s t ∧ t.i = s.i ∧ SameMemory s t ∧ SameStack s t ∧ SameTimers s t ∧ SameDisplay s t ∧ SameRun s t ∧ SameInputs s t
    ∧ SameOutputs s t

/-- Nothing changes but PC, I and the general registers in `ws`. -/
def OnlyPcIndexAndRegs (ws : List Reg) (s t : State) : Prop :=
  SameRegsBut ws s t ∧ SameMemory s t ∧ SameStack s t ∧ SameTimers s t ∧ SameDisplay s t ∧ SameRun s t ∧ SameInputs s t
    ∧ SameOutputs s t

/-- Nothing changes but PC, the mode, the display buffer and the redraw request. -/
def OnlyPcAndDisplay (s t : State) : Prop :=
  SameRegsBut [] s t ∧ t.i = s.i ∧ SameMemory s t ∧ SameStack s t ∧ SameTimers s t ∧ SameRun s t ∧ SameInputs s t
    ∧ t.waiting = s.waiting

/-- Nothing changes but PC and the `n` bytes of memory from `base`. -/
def OnlyPcAndMemory (base n : Nat) (s t : State) : Prop :=
  SameRegsBut [] s t ∧ t.i = s.i ∧ SameMemoryBut base n s t ∧ SameStack s t ∧ SameTimers s t ∧ SameDisplay s t ∧ SameRun s t
    ∧ SameInputs s t ∧ SameOutputs s t

/-- Nothing changes but PC, the stack pointer and the call stack. -/
def OnlyPcAndStack (s t : State) : Prop :=
  SameRegsBut [] s t ∧ t.i = s.i ∧ SameMemory s t ∧ SameTimers s t ∧ SameDisplay s t ∧ SameRun s t ∧ SameInputs s t ∧ SameOutputs s t

/-- The general registers an instruction may write, from the columns "writes" of R21: the destination, and VF where the instruction
writes a status. -/
def regsWritten : Instr → List Reg
  | .ldImm x _ | .addImm x _ | .orReg x _ | .andReg x _ | .xorReg x _ | .movReg x _ | .rnd x _ | .ldVxK x | .ldVxDt x => [x]
  | .addReg x _ | .sub x _ | .subn x _ | .shr x _ | .shl x _ => [15, x]
  | .drw _ _ _ | .addI _ => [15]
  | .ldRegs x => regsUpTo x
  | .scd _ | .cls | .ret | .scr | .scl | .low | .high | .jp _ | .call _ | .seImm _ _ | .sneImm _ _ | .seReg _ _ | .sneReg _ _ | .ldI _
  | .jpV0 _ | .skp _ | .sknp _ | .ldDtVx _ | .ldF _ | .ldB _ | .stRegs _ | .ldStVx _ => []

/-- `t` is `s` after taking a fault (R282, R126): halted, with the record, and every other part of the state as it was. -/
def FaultTaken (s : State) (kind : FaultKind) (info : Nat) (word : Option Word) (t : State) : Prop :=
  t.run = .halted ∧ t.fault = some ⟨kind, info, s.pc, word⟩ ∧ { t with run := s.run, fault := s.fault } = s

/-- The W bits of row `row` of a sprite, as a number (R220): one byte, or for N = 0 two bytes, the byte at the lower address high. -/
def spriteRowBits (s : State) (n : Nibble) (row : Nat) : Nat :=
  if n = 0 then (s.byteAt (s.i.toNat + row * 2)).toNat * 256 + (s.byteAt (s.i.toNat + row * 2 + 1)).toNat
  else (s.byteAt (s.i.toNat + row)).toNat

/-- R220: some (row, col) of the sprite, with its bit `bits[W-1-col]` set, lands on column `c` and row `r`. -/
def SpriteLandsOn (s : State) (x y : Reg) (n : Nibble) (c r : Nat) : Prop :=
  ∃ row col : Nat,
    row < (if n = 0 then 16 else n.toNat) ∧ col < (if n = 0 then 16 else 8)
      ∧ (spriteRowBits s n row).testBit ((if n = 0 then 16 else 8) - 1 - col) = true
      ∧ c = (s.reg x).toNat % s.mode.cols + col ∧ r = (s.reg y).toNat % s.mode.rows + row

/-- *Settled at a* (R129): RUNNING, PC = a, and the word at `a` jumps to `a`. -/
def State.SettledAt (s : State) (a : Addr) : Prop :=
  s.run = .running ∧ s.pc.toNat = a.toNat ∧ s.fetch = some (encode (.jp a))

/-- The cell at column `c` and row `r` is on the active grid. -/
def State.onGrid (s : State) (c r : Nat) : Prop := c < s.mode.cols ∧ r < s.mode.rows

end Sys2Proof.Machine
end

