-- ==== Sys2Proof/Certificates/Slice0/Obligations.lean ====
section
/-! DEFINITION. The statements for the provers, from the numbered rules of spec/. Each docstring names what it formalises; the words
used (frames, FaultTaken, SpriteLandsOn, Inv) are defined in Sys2Proof/Safety.lean. -/

open Sys2Proof Sys2Proof.Machine

/-! ### Encoding (30_encoding) -/

/-- Decoding the encoding of any instruction gives it back, with every operand at every value (R91, R92, R96). -/
def Obligations.DecodeInvertsEncode : Prop := ∀ ins : Instr, decode (encode ins) = .instr ins

/-- A word has one meaning: whatever instruction it decodes to, that instruction's encoding is the word (R95, R96). -/
def Obligations.EncodeInvertsDecode : Prop := ∀ (w : Word) (ins : Instr), decode w = .instr ins → encode ins = w

/-- R96: "The patterns are pairwise disjoint", for every setting of the optional rows. -/
def Obligations.OpcodeRowsAreDisjoint : Prop :=
  ∀ (c : Config) (w : Word) (r q : OpcodeRow), r ∈ enabledRows c → q ∈ enabledRows c → rowMatches r w = true →
    rowMatches q w = true → r = q

/-- R97, R95: a word is unmapped exactly when it matches no enabled row, and otherwise it dispatches an instruction whose row is
enabled and matches. -/
def Obligations.UnmappedExactlyWhenNoRowMatches : Prop :=
  ∀ (c : Config) (w : Word),
    (dispatch c w = .unmapped w ↔ ∀ row ∈ enabledRows c, rowMatches row w = false)
      ∧ ∀ ins, dispatch c w = .instr ins → ins.row ∈ enabledRows c ∧ rowMatches ins.row w = true

/-- Ten words written out from the patterns of R96 decode to the instructions they stand for, and two others are unmapped
(95_test_vectors Part 2; 0x6005 and 0x7003 are of Part 1, S1 and S7). -/
def Obligations.SampleWordsDecode : Prop :=
  decode 0x00E0 = .instr .cls ∧ decode 0x00CF = .instr (.scd 15) ∧ decode 0x1ABC = .instr (.jp 0xABC)
    ∧ decode 0x6005 = .instr (.ldImm 0 5) ∧ decode 0x7003 = .instr (.addImm 0 3) ∧ decode 0x8AB7 = .instr (.subn 10 11)
    ∧ decode 0xC1FF = .instr (.rnd 1 0xFF) ∧ decode 0xD12F = .instr (.drw 1 2 15) ∧ decode 0xE1A1 = .instr (.sknp 1)
    ∧ decode 0xF133 = .instr (.ldB 1) ∧ decode 0x5121 = .unmapped 0x5121 ∧ decode 0x00FD = .unmapped 0x00FD

/-- R91: the nibbles reassemble to the word, the address field is its low 12 bits, the immediate field its low byte. -/
def Obligations.FieldsReassembleTheWord : Prop :=
  ∀ w : Word,
    (fieldN3 w).toNat * 4096 + (fieldN2 w).toNat * 256 + (fieldN1 w).toNat * 16 + (fieldN0 w).toNat = w.toNat
      ∧ fieldN3 w ++ (fieldN2 w ++ (fieldN1 w ++ fieldN0 w)) = w
      ∧ (fieldNNN w).toNat = w.toNat % 4096 ∧ (fieldKK w).toNat = w.toNat % 256
      ∧ wordOfBytes (highByte w) (lowByte w) = w

/-! ### Screen control (41_screen_control) -/

/-- clear-screen, R140. -/
def Obligations.ClearScreenSetsEveryCellFalse : Prop :=
  ∀ s : State, ∃ t, exec .cls s = .next t ∧ t.mode = s.mode ∧ t.disp.length = s.mode.cols * s.mode.rows
    ∧ (∀ c r, t.pixel c r = false) ∧ t.redrawReq = true ∧ t.pc = s.pc + 2 ∧ OnlyPcAndDisplay s t ∧ encode .cls = 0x00E0

/-- set-low-res and set-high-res, R141 and R142: whatever the mode was. -/
def Obligations.ResolutionSwitchesReallocateAndClear : Prop :=
  ∀ s : State,
    (∃ t, exec .low s = .next t ∧ t.mode = .low ∧ t.disp.length = 2048 ∧ (∀ b ∈ t.disp, b = false)
      ∧ t.redrawReq = s.redrawReq ∧ t.pc = s.pc + 2 ∧ OnlyPcAndDisplay s t ∧ encode .low = 0x00FE)
    ∧ (∃ t, exec .high s = .next t ∧ t.mode = .high ∧ t.disp.length = 8192 ∧ (∀ b ∈ t.disp, b = false)
      ∧ t.redrawReq = s.redrawReq ∧ t.pc = s.pc + 2 ∧ OnlyPcAndDisplay s t ∧ encode .high = 0x00FF)

/-- scroll-down, R143, over a buffer of the active mode's size (R32). -/
def Obligations.ScrollDownMovesRows : Prop :=
  ∀ (s : State) (n : Nibble), s.disp.length = s.mode.cols * s.mode.rows →
    ∃ t, exec (.scd n) s = .next t ∧ t.mode = s.mode ∧ t.disp.length = s.disp.length
      ∧ (∀ c r, s.onGrid c r → t.pixel c r = if n.toNat ≤ r then s.pixel c (r - n.toNat) else false)
      ∧ t.redrawReq = s.redrawReq ∧ t.pc = s.pc + 2 ∧ OnlyPcAndDisplay s t ∧ (encode (.scd n)).toNat = 0x00C0 + n.toNat

/-- scroll-right, R144, over a buffer of the active mode's size (R32). -/
def Obligations.ScrollRightMovesFourColumns : Prop :=
  ∀ s : State, s.disp.length = s.mode.cols * s.mode.rows →
    ∃ t, exec .scr s = .next t ∧ t.mode = s.mode ∧ t.disp.length = s.disp.length
      ∧ (∀ c r, s.onGrid c r → t.pixel c r = if 4 ≤ c then s.pixel (c - 4) r else false)
      ∧ t.redrawReq = s.redrawReq ∧ t.pc = s.pc + 2 ∧ OnlyPcAndDisplay s t ∧ encode .scr = 0x00FB

/-- scroll-left, R145, over a buffer of the active mode's size (R32). -/
def Obligations.ScrollLeftMovesFourColumns : Prop :=
  ∀ s : State, s.disp.length = s.mode.cols * s.mode.rows →
    ∃ t, exec .scl s = .next t ∧ t.mode = s.mode ∧ t.disp.length = s.disp.length
      ∧ (∀ c r, s.onGrid c r → t.pixel c r = if c + 4 < s.mode.cols then s.pixel (c + 4) r else false)
      ∧ t.redrawReq = s.redrawReq ∧ t.pc = s.pc + 2 ∧ OnlyPcAndDisplay s t ∧ encode .scl = 0x00FC

/-! ### Control flow (42_control_flow) -/

/-- return, R160: underflow on an empty stack, else the pop. -/
def Obligations.ReturnPopsOrUnderflows : Prop :=
  ∀ s : State,
    (s.sp = 0 → ∃ t, exec .ret s = .next t ∧ FaultTaken s .stackUnderflow 0 (some 0x00EE) t)
    ∧ (0 < s.sp.val → ∃ t, exec .ret s = .next t ∧ t.sp.val = s.sp.val - 1 ∧ t.pc = s.stack[s.sp.val - 1]'(by omega)
      ∧ t.stack = s.stack ∧ OnlyPcAndStack s t)
    ∧ encode .ret = 0x00EE

/-- jump, R161. -/
def Obligations.JumpSetsPc : Prop :=
  ∀ (s : State) (nnn : Addr), ∃ t, exec (.jp nnn) s = .next t ∧ t.pc.toNat = nnn.toNat ∧ OnlyPcAndRegs [] s t
    ∧ (encode (.jp nnn)).toNat = 0x1000 + nnn.toNat

/-- call, R162: overflow with 128 saved entries, else the push of the advanced PC. -/
def Obligations.CallPushesOrOverflows : Prop :=
  ∀ (s : State) (nnn : Addr),
    (s.sp = 128 → ∃ t, exec (.call nnn) s = .next t ∧ FaultTaken s .stackOverflow 128 (some (encode (.call nnn))) t)
    ∧ (∀ h : s.sp.val < 128, ∃ t, exec (.call nnn) s = .next t ∧ t.stack[s.sp.val] = s.pc + 2
      ∧ (∀ (k : Nat) (hk : k < 128), k ≠ s.sp.val → t.stack[k] = s.stack[k]) ∧ t.sp.val = s.sp.val + 1
      ∧ t.pc.toNat = nnn.toNat ∧ OnlyPcAndStack s t)
    ∧ (encode (.call nnn)).toNat = 0x2000 + nnn.toNat

/-- skip-if-equal-immediate and skip-if-not-equal-immediate, R163 and R164. -/
def Obligations.SkipsComparingAnImmediate : Prop :=
  ∀ (s : State) (x : Reg) (kk : Byte),
    (∃ t, exec (.seImm x kk) s = .next t ∧ t.pc = (if s.reg x = kk then s.pc + 4 else s.pc + 2) ∧ OnlyPcAndRegs [] s t
      ∧ (encode (.seImm x kk)).toNat = 0x3000 + 0x100 * x.val + kk.toNat)
    ∧ (∃ t, exec (.sneImm x kk) s = .next t ∧ t.pc = (if s.reg x ≠ kk then s.pc + 4 else s.pc + 2) ∧ OnlyPcAndRegs [] s t
      ∧ (encode (.sneImm x kk)).toNat = 0x4000 + 0x100 * x.val + kk.toNat)

/-- skip-if-registers-equal and skip-if-registers-not-equal, R165 and R166; with a last nibble other than 0 the word is unmapped. -/
def Obligations.SkipsComparingRegisters : Prop :=
  ∀ (s : State) (x y : Reg),
    (∃ t, exec (.seReg x y) s = .next t ∧ t.pc = (if s.reg x = s.reg y then s.pc + 4 else s.pc + 2) ∧ OnlyPcAndRegs [] s t
      ∧ (encode (.seReg x y)).toNat = 0x5000 + 0x100 * x.val + 0x10 * y.val)
    ∧ (∃ t, exec (.sneReg x y) s = .next t ∧ t.pc = (if s.reg x ≠ s.reg y then s.pc + 4 else s.pc + 2) ∧ OnlyPcAndRegs [] s t
      ∧ (encode (.sneReg x y)).toNat = 0x9000 + 0x100 * x.val + 0x10 * y.val)
    ∧ ∀ n : Nibble, n ≠ 0 →
      decode (wordXYN 0x5 x y n) = .unmapped (wordXYN 0x5 x y n) ∧ decode (wordXYN 0x9 x y n) = .unmapped (wordXYN 0x9 x y n)

/-- jump-with-offset, R168: the sum is not reduced. -/
def Obligations.JumpWithOffsetAddsRegisterZero : Prop :=
  ∀ (s : State) (nnn : Addr), ∃ t, exec (.jpV0 nnn) s = .next t ∧ t.pc.toNat = nnn.toNat + (s.reg 0).toNat
    ∧ OnlyPcAndRegs [] s t ∧ (encode (.jpV0 nnn)).toNat = 0xB000 + nnn.toNat

/-! ### Immediates and register arithmetic (43_immediate, 44_arithmetic) -/

/-- load-immediate and add-immediate, R180 and R181, and what neither touches, R182. -/
def Obligations.ImmediatesLoadAndAddWithoutFlag : Prop :=
  ∀ (s : State) (x : Reg) (kk : Byte),
    (∃ t, exec (.ldImm x kk) s = .next t ∧ t.reg x = kk ∧ t.pc = s.pc + 2 ∧ OnlyPcAndRegs [x] s t
      ∧ (encode (.ldImm x kk)).toNat = 0x6000 + 0x100 * x.val + kk.toNat)
    ∧ (∃ t, exec (.addImm x kk) s = .next t ∧ (t.reg x).toNat = ((s.reg x).toNat + kk.toNat) % 256 ∧ t.pc = s.pc + 2
      ∧ OnlyPcAndRegs [x] s t ∧ (encode (.addImm x kk)).toNat = 0x7000 + 0x100 * x.val + kk.toNat)

/-- OR, AND and XOR, R190 to R192: no status write. -/
def Obligations.LogicWritesOnlyItsDestination : Prop :=
  ∀ (s : State) (x y : Reg),
    (∃ t, exec (.orReg x y) s = .next t ∧ t.reg x = s.reg x ||| s.reg y ∧ t.pc = s.pc + 2 ∧ OnlyPcAndRegs [x] s t
      ∧ (encode (.orReg x y)).toNat = 0x8001 + 0x100 * x.val + 0x10 * y.val)
    ∧ (∃ t, exec (.andReg x y) s = .next t ∧ t.reg x = s.reg x &&& s.reg y ∧ t.pc = s.pc + 2 ∧ OnlyPcAndRegs [x] s t
      ∧ (encode (.andReg x y)).toNat = 0x8002 + 0x100 * x.val + 0x10 * y.val)
    ∧ (∃ t, exec (.xorReg x y) s = .next t ∧ t.reg x = s.reg x ^^^ s.reg y ∧ t.pc = s.pc + 2 ∧ OnlyPcAndRegs [x] s t
      ∧ (encode (.xorReg x y)).toNat = 0x8003 + 0x100 * x.val + 0x10 * y.val)

/-- ADD, R193: VF is the carry unless it is the destination, which holds the truncated sum of the old operands. -/
def Obligations.AddSetsCarryThenStoresSum : Prop :=
  ∀ (s : State) (x y : Reg), ∃ t, exec (.addReg x y) s = .next t
    ∧ (t.reg x).toNat = ((s.reg x).toNat + (s.reg y).toNat) % 256
    ∧ (x ≠ 15 → t.reg 15 = if (s.reg x).toNat + (s.reg y).toNat > 255 then 1 else 0)
    ∧ t.pc = s.pc + 2 ∧ OnlyPcAndRegs [15, x] s t ∧ (encode (.addReg x y)).toNat = 0x8004 + 0x100 * x.val + 0x10 * y.val

/-- SUB, R194, and SUB-reverse, R195: VF is 1 iff the minuend strictly exceeds the subtrahend, unless VF is the destination. -/
def Obligations.SubtractionsSetStrictGreaterThenStoreDifference : Prop :=
  ∀ (s : State) (x y : Reg),
    (∃ t, exec (.sub x y) s = .next t
      ∧ (t.reg x).toNat = ((s.reg x).toNat + 256 - (s.reg y).toNat) % 256
      ∧ (x ≠ 15 → t.reg 15 = if (s.reg x).toNat > (s.reg y).toNat then 1 else 0)
      ∧ t.pc = s.pc + 2 ∧ OnlyPcAndRegs [15, x] s t ∧ (encode (.sub x y)).toNat = 0x8005 + 0x100 * x.val + 0x10 * y.val)
    ∧ (∃ t, exec (.subn x y) s = .next t
      ∧ (t.reg x).toNat = ((s.reg y).toNat + 256 - (s.reg x).toNat) % 256
      ∧ (x ≠ 15 → t.reg 15 = if (s.reg y).toNat > (s.reg x).toNat then 1 else 0)
      ∧ t.pc = s.pc + 2 ∧ OnlyPcAndRegs [15, x] s t ∧ (encode (.subn x y)).toNat = 0x8007 + 0x100 * x.val + 0x10 * y.val)

/-- SHIFT-right, R196: the shifted value is V[X], or V[Y] when P_SHIFT_SRC = Y; VF is its bit 0 unless VF is the destination. -/
def Obligations.ShiftRightSetsLowBitThenHalves : Prop :=
  ∀ (s : State) (x y : Reg) (a : Byte), a = (if s.cfg.shiftSrc = .x then s.reg x else s.reg y) →
    ∃ t, exec (.shr x y) s = .next t ∧ (t.reg x).toNat = a.toNat / 2
      ∧ (x ≠ 15 → t.reg 15 = if a.toNat % 2 = 1 then 1 else 0)
      ∧ t.pc = s.pc + 2 ∧ OnlyPcAndRegs [15, x] s t ∧ (encode (.shr x y)).toNat = 0x8006 + 0x100 * x.val + 0x10 * y.val

/-- SHIFT-left, R197: VF is bit 7 of the shifted value unless VF is the destination. -/
def Obligations.ShiftLeftSetsHighBitThenDoubles : Prop :=
  ∀ (s : State) (x y : Reg) (a : Byte), a = (if s.cfg.shiftSrc = .x then s.reg x else s.reg y) →
    ∃ t, exec (.shl x y) s = .next t ∧ (t.reg x).toNat = 2 * a.toNat % 256
      ∧ (x ≠ 15 → t.reg 15 = if 128 ≤ a.toNat then 1 else 0)
      ∧ t.pc = s.pc + 2 ∧ OnlyPcAndRegs [15, x] s t ∧ (encode (.shl x y)).toNat = 0x800E + 0x100 * x.val + 0x10 * y.val

/-- The optional register move, R198: its word dispatches it exactly when P_HAS_MOV, and is unmapped otherwise. -/
def Obligations.RegisterMoveCopiesWhenEnabled : Prop :=
  ∀ (s : State) (x y : Reg),
    (∃ t, exec (.movReg x y) s = .next t ∧ t.reg x = s.reg y ∧ t.pc = s.pc + 2 ∧ OnlyPcAndRegs [x] s t)
    ∧ (encode (.movReg x y)).toNat = 0x8000 + 0x100 * x.val + 0x10 * y.val
    ∧ ∀ c : Config, dispatch c (encode (.movReg x y))
        = if c.hasMov = true then .instr (.movReg x y) else .unmapped (encode (.movReg x y))

/-! ### set-index and random-AND-mask (45_index_random) -/

/-- set-index, R210. -/
def Obligations.SetIndexLoadsTheAddressField : Prop :=
  ∀ (s : State) (nnn : Addr), ∃ t, exec (.ldI nnn) s = .next t ∧ t.i.toNat = nnn.toNat ∧ t.pc = s.pc + 2
    ∧ OnlyPcIndexAndRegs [] s t ∧ (encode (.ldI nnn)).toNat = 0xA000 + nnn.toNat

/-- random-AND-mask, R211, and what it does not touch, R212. The byte `rnd` is a free input: the statement holds whatever it is
(notes/assumptions/4.md). That each execution takes the sample numbered `rndNo` and counts it is the model's form of "sampled exactly
once" (notes/assumptions/16.md), no rule of the spec. -/
def Obligations.RandomByteIsMasked : Prop :=
  ∀ (s : State) (x : Reg) (kk : Byte), ∃ t, exec (.rnd x kk) s = .next t ∧ t.reg x = Config.rndPort s.rndNo &&& kk
    ∧ t.reg x &&& ~~~kk = 0 ∧ t.rndNo = s.rndNo + 1 ∧ t.pc = s.pc + 2 ∧ SameRegsBut [x] s t ∧ t.i = s.i ∧ SameMemory s t
    ∧ SameStack s t ∧ SameTimers s t ∧ SameDisplay s t ∧ SameRun s t ∧ SameOutputs s t ∧ t.cfg = s.cfg ∧ t.keys = s.keys
    ∧ t.stepNo = s.stepNo ∧ (encode (.rnd x kk)).toNat = 0xC000 + 0x100 * x.val + kk.toNat

/-! ### draw-sprite (46_draw_sprite) -/

/-- draw-sprite, R220 to R225 and R227, over a buffer of the active mode's size (R32): each on-grid cell a set sprite bit lands on is
toggled and every other cell kept; VF is 1 on a collision and otherwise not written, or 0 under P_DRAW_RESETS_VF; an extent past 4095
is the fault, with nothing changed. -/
def Obligations.DrawTogglesSpriteCells : Prop :=
  ∀ (s : State) (x y : Reg) (n : Nibble) (bytes : Nat), bytes = (if n = 0 then 32 else n.toNat) →
    s.disp.length = s.mode.cols * s.mode.rows →
    (s.i.toNat + bytes ≤ 4096 → ∃ t, exec (.drw x y n) s = .next t ∧ t.mode = s.mode ∧ t.disp.length = s.disp.length
      ∧ (∀ c r, s.onGrid c r → SpriteLandsOn s x y n c r → t.pixel c r = !s.pixel c r)
      ∧ (∀ c r, s.onGrid c r → ¬ SpriteLandsOn s x y n c r → t.pixel c r = s.pixel c r)
      ∧ ((∃ c r, s.onGrid c r ∧ SpriteLandsOn s x y n c r ∧ s.pixel c r = true) → t.reg 15 = 1)
      ∧ ((¬ ∃ c r, s.onGrid c r ∧ SpriteLandsOn s x y n c r ∧ s.pixel c r = true) →
          t.reg 15 = if s.cfg.drawResetsVf = true then 0 else s.reg 15)
      ∧ t.redrawReq = true ∧ t.pc = s.pc + 2 ∧ SameRegsBut [15] s t ∧ t.i = s.i ∧ SameMemory s t ∧ SameStack s t ∧ SameTimers s t
      ∧ SameRun s t ∧ SameInputs s t ∧ t.waiting = s.waiting)
    ∧ (4096 < s.i.toNat + bytes → ∃ t, exec (.drw x y n) s = .next t
      ∧ FaultTaken s .addressOutOfRange (s.i.toNat + bytes - 1) (some (encode (.drw x y n))) t)
    ∧ (encode (.drw x y n)).toNat = 0xD000 + 0x100 * x.val + 0x10 * y.val + n.toNat

/-- R220, R223: the machine's cell-by-cell buffer and collision flag are what the rule's two nested loops compute. -/
def Obligations.DrawEqualsTheNestedLoops : Prop :=
  ∀ (s : State) (x y : Reg) (n : Nibble), s.disp.length = s.mode.cols * s.mode.rows →
    drawLoop s x y n = { disp := s.spriteDrawn x y n, collided := s.spriteCollides x y n }

/-- R226 "draw twice, same data, same place": the second draw restores the cells of the first. The place is the same when the
coordinate registers still read the same, which a write to VF could change. -/
def Obligations.DrawTwiceRestoresTheDisplay : Prop :=
  ∀ (s t u : State) (x y : Reg) (n : Nibble), s.i.toNat + (if n = 0 then 32 else n.toNat) ≤ 4096 →
    exec (.drw x y n) s = .next t → t.reg x = s.reg x → t.reg y = s.reg y → exec (.drw x y n) t = .next u → u.disp = s.disp

/-! ### Keys (47_keys) -/

/-- skip-if-key-pressed and skip-if-key-not-pressed, R240 and R241: the skip for an index up to 15, the fault above. -/
def Obligations.KeySkipsTestTheLatch : Prop :=
  ∀ (s : State) (x : Reg),
    ((s.reg x).toNat ≤ 15 →
      (∃ t, exec (.skp x) s = .next t ∧ t.pc = (if s.keys.getLsbD (s.reg x).toNat = true then s.pc + 4 else s.pc + 2)
        ∧ OnlyPcAndRegs [] s t)
      ∧ (∃ t, exec (.sknp x) s = .next t ∧ t.pc = (if s.keys.getLsbD (s.reg x).toNat = false then s.pc + 4 else s.pc + 2)
        ∧ OnlyPcAndRegs [] s t))
    ∧ (15 < (s.reg x).toNat →
      (∃ t, exec (.skp x) s = .next t ∧ FaultTaken s .keyIndexOutOfRange (s.reg x).toNat (some (encode (.skp x))) t)
      ∧ (∃ t, exec (.sknp x) s = .next t ∧ FaultTaken s .keyIndexOutOfRange (s.reg x).toNat (some (encode (.sknp x))) t))
    ∧ (encode (.skp x)).toNat = 0xE09E + 0x100 * x.val ∧ (encode (.sknp x)).toNat = 0xE0A1 + 0x100 * x.val

/-- wait-for-key, R242: with no key latched PC is back at the instruction and nothing else changes but the output `waiting`; else
V[X] is the highest latched key. -/
def Obligations.WaitForKeyRewindsOrStoresHighestKey : Prop :=
  ∀ (s : State) (x : Reg),
    ((∀ k, k < 16 → s.keys.getLsbD k = false) → ∃ t, exec (.ldVxK x) s = .next t ∧ t.pc = s.pc ∧ t.waiting = true
      ∧ SameRegsBut [] s t ∧ t.i = s.i ∧ SameMemory s t ∧ SameStack s t ∧ SameTimers s t ∧ SameDisplay s t ∧ SameRun s t
      ∧ SameInputs s t ∧ t.redrawReq = s.redrawReq)
    ∧ (∀ k, k < 16 → s.keys.getLsbD k = true → (∀ j, k < j → j < 16 → s.keys.getLsbD j = false) →
      ∃ t, exec (.ldVxK x) s = .next t ∧ (t.reg x).toNat = k ∧ t.pc = s.pc + 2 ∧ OnlyPcAndRegs [x] s t)
    ∧ (encode (.ldVxK x)).toNat = 0xF00A + 0x100 * x.val

/-! ### Timer, index, memory transfer (48_timer_index_memory) -/

/-- get-delay-timer and set-delay-timer, R250 and R251. -/
def Obligations.DelayTimerReadsAndWrites : Prop :=
  ∀ (s : State) (x : Reg),
    (∃ t, exec (.ldVxDt x) s = .next t ∧ (t.reg x).toNat = s.dt.toNat % 256 ∧ t.pc = s.pc + 2 ∧ OnlyPcAndRegs [x] s t
      ∧ (encode (.ldVxDt x)).toNat = 0xF007 + 0x100 * x.val)
    ∧ (∃ t, exec (.ldDtVx x) s = .next t ∧ t.dt.toNat = (s.reg x).toNat ∧ t.st = s.st ∧ t.batchCnt = s.batchCnt
      ∧ t.pc = s.pc + 2 ∧ SameRegsBut [] s t ∧ t.i = s.i ∧ SameMemory s t ∧ SameStack s t ∧ SameDisplay s t ∧ SameRun s t
      ∧ SameInputs s t ∧ SameOutputs s t ∧ (encode (.ldDtVx x)).toNat = 0xF015 + 0x100 * x.val)

/-- add-to-index, R252: the wrap modulo 4096 with VF <- 1, and no write to VF below 4096. -/
def Obligations.AddToIndexWrapsModulo4096 : Prop :=
  ∀ (s : State) (x : Reg), ∃ t, exec (.addI x) s = .next t
    ∧ t.i.toNat = (s.i.toNat + (s.reg x).toNat) % 4096
    ∧ t.reg 15 = (if 4096 ≤ s.i.toNat + (s.reg x).toNat then 1 else s.reg 15)
    ∧ t.pc = s.pc + 2 ∧ OnlyPcIndexAndRegs [15] s t ∧ (encode (.addI x)).toNat = 0xF01E + 0x100 * x.val

/-- set-index-to-font-glyph, R253, for every allowed FONT_BASE (R5): the whole register value, no mask, no fault. -/
def Obligations.GlyphIndexIsBasePlusFiveTimesDigit : Prop :=
  ∀ (s : State) (x : Reg), s.cfg.wf = true → ∃ t, exec (.ldF x) s = .next t
    ∧ t.i.toNat = s.cfg.fontBase + 5 * (s.reg x).toNat ∧ t.pc = s.pc + 2 ∧ OnlyPcIndexAndRegs [] s t
    ∧ (encode (.ldF x)).toNat = 0xF029 + 0x100 * x.val

/-- The optional set-sound-timer, R258: its word dispatches it exactly when P_HAS_SOUND_TIMER, and is unmapped otherwise. -/
def Obligations.SoundTimerIsSetWhenEnabled : Prop :=
  ∀ (s : State) (x : Reg),
    (∃ t, exec (.ldStVx x) s = .next t ∧ t.st.toNat = (s.reg x).toNat ∧ t.dt = s.dt ∧ t.batchCnt = s.batchCnt ∧ t.pc = s.pc + 2
      ∧ SameRegsBut [] s t ∧ t.i = s.i ∧ SameMemory s t ∧ SameStack s t ∧ SameDisplay s t ∧ SameRun s t ∧ SameInputs s t
      ∧ SameOutputs s t)
    ∧ (encode (.ldStVx x)).toNat = 0xF018 + 0x100 * x.val
    ∧ ∀ c : Config, dispatch c (encode (.ldStVx x))
        = if c.hasSoundTimer = true then .instr (.ldStVx x) else .unmapped (encode (.ldStVx x))

/-- binary-coded-decimal, R254, over a memory in canonical form. -/
def Obligations.BcdStoresThreeDigits : Prop :=
  ∀ (s : State) (x : Reg), Memory.wf s.cfg s.mem →
    (s.i.toNat + 2 ≤ 4095 → ∃ t, exec (.ldB x) s = .next t
      ∧ (t.byteAt s.i.toNat).toNat = (s.reg x).toNat / 100
      ∧ (t.byteAt (s.i.toNat + 1)).toNat = (s.reg x).toNat / 10 % 10
      ∧ (t.byteAt (s.i.toNat + 2)).toNat = (s.reg x).toNat % 10
      ∧ t.pc = s.pc + 2 ∧ OnlyPcAndMemory s.i.toNat 3 s t)
    ∧ (4095 < s.i.toNat + 2 → ∃ t, exec (.ldB x) s = .next t
      ∧ FaultTaken s .addressOutOfRange (s.i.toNat + 2) (some (encode (.ldB x))) t)
    ∧ (encode (.ldB x)).toNat = 0xF033 + 0x100 * x.val

/-- store-registers, R256, with I unchanged, R255, over a memory in canonical form. -/
def Obligations.StoreRegistersCopiesToMemory : Prop :=
  ∀ (s : State) (x : Reg), Memory.wf s.cfg s.mem →
    (s.i.toNat + x.val ≤ 4095 → ∃ t, exec (.stRegs x) s = .next t
      ∧ (∀ r : Reg, r.val ≤ x.val → t.byteAt (s.i.toNat + r.val) = s.reg r)
      ∧ t.pc = s.pc + 2 ∧ OnlyPcAndMemory s.i.toNat (x.val + 1) s t)
    ∧ (4095 < s.i.toNat + x.val → ∃ t, exec (.stRegs x) s = .next t
      ∧ FaultTaken s .addressOutOfRange (s.i.toNat + x.val) (some (encode (.stRegs x))) t)
    ∧ (encode (.stRegs x)).toNat = 0xF055 + 0x100 * x.val

/-- load-registers, R257, with I and memory unchanged, R255. -/
def Obligations.LoadRegistersCopiesFromMemory : Prop :=
  ∀ (s : State) (x : Reg),
    (s.i.toNat + x.val ≤ 4095 → ∃ t, exec (.ldRegs x) s = .next t
      ∧ (∀ r : Reg, r.val ≤ x.val → t.reg r = s.byteAt (s.i.toNat + r.val))
      ∧ (∀ r : Reg, x.val < r.val → t.reg r = s.reg r)
      ∧ t.pc = s.pc + 2 ∧ OnlyPcAndRegs (regsUpTo x) s t)
    ∧ (4095 < s.i.toNat + x.val → ∃ t, exec (.ldRegs x) s = .next t
      ∧ FaultTaken s .addressOutOfRange (s.i.toNat + x.val) (some (encode (.ldRegs x))) t)
    ∧ (encode (.ldRegs x)).toNat = 0xF065 + 0x100 * x.val

/-- R68 (1): a load-registers after a store-registers of the same addresses gives the stored registers back, whatever the registers
hold in between. -/
def Obligations.LoadAfterStoreRestoresRegisters : Prop :=
  ∀ (s t u : State) (x : Reg) (v : Vector Byte 16), Memory.wf s.cfg s.mem → s.i.toNat + x.val ≤ 4095 →
    exec (.stRegs x) s = .next t → exec (.ldRegs x) { t with v := v } = .next u →
      ∀ r : Reg, r.val ≤ x.val → u.reg r = s.reg r

/-- R70: stored bytes are seen by the next fetch of their address: after a store-registers, the word at any two stored bytes is made
of the stored registers. -/
def Obligations.FetchSeesStoredBytes : Prop :=
  ∀ (s t : State) (x r q : Reg) (pc : Word), Memory.wf s.cfg s.mem → s.i.toNat + x.val ≤ 4095 → exec (.stRegs x) s = .next t →
    q.val = r.val + 1 → q.val ≤ x.val → pc.toNat = s.i.toNat + r.val →
      (t.setPc pc).fetch = some (wordOfBytes (s.reg r) (s.reg q))

/-! ### The step (40_execution_cycle) and faults (60_exceptions) -/

/-- R121: a running core whose fetched word decodes to an instruction it has runs exactly that instruction, after the ticks and the
key refresh (`beginStep`), and then counts the completed step (`finishStep`). -/
def Obligations.StepRunsTheDecodedInstruction : Prop :=
  ∀ (s : State) (w : Word) (ins : Instr), s.run = .running → s.beginStep.fetch = some w → decode w = .instr ins →
    ins.wellFormed s.cfg = true →
      step s = match exec ins s.beginStep with
        | .next t => .next t.finishStep
        | .fault f => .fault f
        | .refused r => .refused r

/-- What `beginStep` does (R127, R122, R128): the due ticks, the key refresh, the outputs of the last step ended, nothing else. -/
def Obligations.StepBeginsWithTicksAndKeyRefresh : Prop :=
  ∀ s : State, s.beginStep.keys = Config.keysPort s.stepNo ∧ s.beginStep.dt.toNat = s.dt.toNat - s.ticksDue
    ∧ (s.cfg.hasSoundTimer = true → s.beginStep.st.toNat = s.st.toNat - s.ticksDue)
    ∧ (s.cfg.hasSoundTimer = false → s.beginStep.st = s.st)
    ∧ (s.cfg.tickBatch = none → s.ticksDue = Config.ticksBefore s.stepNo)
    ∧ (s.cfg.tickBatch ≠ none → s.ticksDue = 0)
    ∧ s.beginStep.redrawReq = false ∧ s.beginStep.waiting = false ∧ s.beginStep.stepNo = s.stepNo + 1
    ∧ { s.beginStep with keys := s.keys, dt := s.dt, st := s.st, redrawReq := s.redrawReq, waiting := s.waiting,
                         stepNo := s.stepNo } = s

/-- R34, R126, R283: a halted core makes no step, a running core always does. -/
def Obligations.StepEnabledExactlyWhenRunning : Prop :=
  ∀ s : State, ((∃ t, step s = .next t) ↔ s.run = .running) ∧ (s.run = .halted → step s = .fault .halted)

/-- R123: the fetch is the big-endian word at PC, even or odd, and a fetch that touches an address above 4095 is the fault
AddressOutOfRange(PC + 1), with no word. -/
def Obligations.FetchReadsTwoBytesOrFaults : Prop :=
  ∀ s : State,
    (s.pc.toNat + 1 ≤ 4095 → ∃ w, s.fetch = some w
      ∧ w.toNat = (s.byteAt s.pc.toNat).toNat * 256 + (s.byteAt (s.pc.toNat + 1)).toNat)
    ∧ (s.run = .running → 4095 < s.pc.toNat + 1 → ∃ t, step s = .next t
      ∧ FaultTaken s.beginStep .addressOutOfRange (s.pc.toNat + 1) none t)

/-- R271: a fetched word that matches no enabled row raises UnmappedOpcode with the word; 0x0000 is such a word. -/
def Obligations.UnmappedWordFaults : Prop :=
  ∀ (s : State) (w : Word), s.run = .running → s.beginStep.fetch = some w →
    ((∀ row ∈ enabledRows s.cfg, rowMatches row w = false) →
      ∃ t, step s = .next t ∧ FaultTaken s.beginStep .unmappedOpcode w.toNat (some w) t)
    ∧ (w = 0 → ∀ row ∈ enabledRows s.cfg, rowMatches row w = false)

/-- R126: a step that ends halted changed nothing but RUN and FAULT since the key refresh; the record holds the PC of the instruction
and the fetched word, absent when the fetch faulted; no later step is enabled. -/
def Obligations.FaultingStepKeepsThePreInstructionState : Prop :=
  ∀ s t : State, step s = .next t → t.run = .halted →
    ∃ kind info, FaultTaken s.beginStep kind info s.beginStep.fetch t ∧ t.pc = s.pc ∧ t.keys = Config.keysPort s.stepNo
      ∧ step t = .fault .halted

/-- R122: every step, a faulting or repeated one too, refreshes the key latch from the port. The port is a free input: the statement
holds whatever it presents (notes/assumptions/3.md). -/
def Obligations.KeysRefreshedEveryStep : Prop :=
  ∀ s t : State, step s = .next t → t.keys = Config.keysPort s.stepNo

/-- R127: a tick counts DT down to a floor of zero, and the ticks before a step are that many single ticks. -/
def Obligations.TicksCountDownToZero : Prop :=
  ∀ (s : State) (n : Nat), s.tick.dt.toNat = s.dt.toNat - 1
    ∧ s.tick.st.toNat = (if s.cfg.hasSoundTimer = true then s.st.toNat - 1 else s.st.toNat)
    ∧ { s.tick with dt := s.dt, st := s.st } = s ∧ s.ticks n = State.tick^[n] s

/-- R127, R121 step 7: under TICK_BATCH = n no tick precedes a step, a completed step counts, the n-th ticks and restarts the count,
and a faulting step does not count. -/
def Obligations.BatchTicksAfterEveryNthStep : Prop :=
  ∀ (s t : State) (n : Nat), s.cfg.tickBatch = some n → s.run = .running → step s = .next t →
    s.beginStep.dt = s.dt
    ∧ (t.run = .halted → t.batchCnt = s.batchCnt ∧ t.dt = s.dt)
    ∧ (t.run = .running → ∃ ins u, exec ins s.beginStep = .next u ∧ u.batchCnt = s.batchCnt
      ∧ t = if s.batchCnt + 1 = n then { u.tick with batchCnt := 0 } else { u with batchCnt := s.batchCnt + 1 })

/-- R128: redraw_req is asserted for exactly the steps that complete a clear-screen or a draw-sprite. -/
def Obligations.RedrawExactlyAfterClearOrDraw : Prop :=
  ∀ s t : State, step s = .next t →
    (t.redrawReq = true ↔ t.run = .running ∧ ∃ w ins, s.beginStep.fetch = some w ∧ dispatch s.cfg w = .instr ins
      ∧ (ins = .cls ∨ ∃ x y n, ins = .drw x y n))

/-! ### Whole-machine rules -/

/-- R24, R27, R28, R29, R30, R31, R32, R39, R66: which instructions can change each piece of state other than the registers and PC. -/
def Obligations.SpecialStateWriters : Prop :=
  ∀ (ins : Instr) (s t : State), exec ins s = .next t →
    (t.sp ≠ s.sp → ins = .ret ∨ ∃ nnn, ins = .call nnn)
    ∧ (t.stack ≠ s.stack → ∃ nnn, ins = .call nnn)
    ∧ (t.i ≠ s.i → (∃ nnn, ins = .ldI nnn) ∨ (∃ x, ins = .addI x) ∨ ∃ x, ins = .ldF x)
    ∧ (t.dt ≠ s.dt → ∃ x, ins = .ldDtVx x)
    ∧ (t.st ≠ s.st → ∃ x, ins = .ldStVx x)
    ∧ (t.mode ≠ s.mode → ins = .low ∨ ins = .high)
    ∧ (t.disp ≠ s.disp → ins = .cls ∨ ins = .low ∨ ins = .high ∨ (∃ n, ins = .scd n) ∨ ins = .scr ∨ ins = .scl
        ∨ ∃ x y n, ins = .drw x y n)
    ∧ (t.mem ≠ s.mem → (∃ x, ins = .ldB x) ∨ ∃ x, ins = .stRegs x)
    ∧ t.keys = s.keys ∧ t.cfg = s.cfg

/-- R21, R22: an instruction changes no general register, VF included, outside the "writes" column of R21. -/
def Obligations.RegisterWriters : Prop :=
  ∀ (ins : Instr) (s t : State) (r : Reg), exec ins s = .next t → r ∉ regsWritten ins → t.reg r = s.reg r

/-- R26: the complete list of what a completed instruction does to PC. -/
def Obligations.PcChangesAsListed : Prop :=
  ∀ (ins : Instr) (s t : State), s.run = .running → exec ins s = .next t → t.run = .running →
    match ins with
    | .jp nnn | .call nnn => t.pc.toNat = nnn.toNat
    | .jpV0 nnn => t.pc.toNat = nnn.toNat + (s.reg 0).toNat
    | .ret => t.pc = s.stack[s.sp.val - 1]'(by omega)
    | .seImm _ _ | .sneImm _ _ | .seReg _ _ | .sneReg _ _ | .skp _ | .sknp _ => t.pc = s.pc + 2 ∨ t.pc = s.pc + 4
    | .ldVxK _ => t.pc = s.pc + 2 ∨ (t.pc = s.pc ∧ s.keys = 0)
    | _ => t.pc = s.pc + 2

/-- R30, R287: the keys are seen by the three key instructions alone: every other instruction does the same whatever is latched. -/
def Obligations.KeysSeenOnlyByKeyInstructions : Prop :=
  ∀ (ins : Instr) (s t : State) (k : BitVec 16), (∀ x, ins ≠ .skp x ∧ ins ≠ .sknp x ∧ ins ≠ .ldVxK x) →
    exec ins s = .next t → exec ins { s with keys := k } = .next { t with keys := k }

/-- R129: a core settled at a jump to itself stays there, and each step returns the same state up to KEYS, the timers and their batch
count, the outputs and the model's numbering of the inputs. -/
def Obligations.SelfJumpSettles : Prop :=
  ∀ (s : State) (a : Addr), s.SettledAt a → ∃ t, step s = .next t ∧ t.SettledAt a
    ∧ { t with keys := s.keys, dt := s.dt, st := s.st, batchCnt := s.batchCnt, redrawReq := s.redrawReq, waiting := s.waiting,
               stepNo := s.stepNo } = s

/-! ### Reset and the invariant -/

/-- R38, R310, R311, R312: reset with an image of at most 3584 bytes gives the listed values, memory built in the order of R311; a
longer image is refused. -/
def Obligations.BootGivesTheResetState : Prop :=
  ∀ (c : Config) (image : List Byte), c.wf = true →
    (3584 < image.length → State.boot c image = none)
    ∧ (image.length ≤ 3584 → ∃ s, State.boot c image = some s ∧ s.cfg = c ∧ (∀ r, s.reg r = 0) ∧ s.i = 0 ∧ s.pc = 0x200
      ∧ s.sp = 0 ∧ (∀ (k : Nat) (h : k < 128), s.stack[k] = 0) ∧ s.dt = 0 ∧ s.st = 0 ∧ s.keys = 0 ∧ s.mode = .low
      ∧ s.disp.length = 2048 ∧ (∀ b ∈ s.disp, b = false) ∧ s.run = .running ∧ s.fault = none ∧ s.batchCnt = 0
      ∧ ∀ a, a ≤ 4095 → s.byteAt a =
          if 0x200 ≤ a ∧ a < 0x200 + image.length then image.getD (a - 0x200) 0
          else if c.fontBase ≤ a ∧ a < c.fontBase + 80 then c.fontGlyphs.getD (a - c.fontBase) 0
          else c.initMem.getD a 0)

/-- The invariant holds at reset (R38). -/
def Obligations.ResetMeetsTheInvariant : Prop := State.reset.Inv

/-- The invariant holds after reset with any allowed parameters and any accepted image (R38, R311, R312). -/
def Obligations.BootMeetsTheInvariant : Prop :=
  ∀ (c : Config) (image : List Byte) (s : State), c.wf = true → State.boot c image = some s → s.Inv

/-- Every step keeps the invariant: memory canonical and within 4096 bytes, I <= 4095, PC <= 0x10FE, saved PCs <= 0x1000, DT <= 255,
DISP of the active mode's size, a fault record exactly when halted, BATCHCNT in range (R24, R26, R29, R32, R34, R36, R39, R60). -/
def Obligations.StepKeepsTheInvariant : Prop := ∀ s t : State, s.Inv → step s = .next t → t.Inv
end

