-- ==== Sys2Proof/Laws/State.lean ====
section
/-! SUPPORT. What each named update of the state does to each field: one lemma per field per update, true by rfl. -/

namespace Sys2Proof.Machine

@[simp] theorem State.setReg_cfg (s : State) (r : Reg) (b : Byte) : (s.setReg r b).cfg = s.cfg := rfl
@[simp] theorem State.setReg_mem (s : State) (r : Reg) (b : Byte) : (s.setReg r b).mem = s.mem := rfl
@[simp] theorem State.setReg_v (s : State) (r : Reg) (b : Byte) : (s.setReg r b).v = s.v.set r.val b r.isLt := rfl
@[simp] theorem State.setReg_i (s : State) (r : Reg) (b : Byte) : (s.setReg r b).i = s.i := rfl
@[simp] theorem State.setReg_pc (s : State) (r : Reg) (b : Byte) : (s.setReg r b).pc = s.pc := rfl
@[simp] theorem State.setReg_sp (s : State) (r : Reg) (b : Byte) : (s.setReg r b).sp = s.sp := rfl
@[simp] theorem State.setReg_stack (s : State) (r : Reg) (b : Byte) : (s.setReg r b).stack = s.stack := rfl
@[simp] theorem State.setReg_dt (s : State) (r : Reg) (b : Byte) : (s.setReg r b).dt = s.dt := rfl
@[simp] theorem State.setReg_st (s : State) (r : Reg) (b : Byte) : (s.setReg r b).st = s.st := rfl
@[simp] theorem State.setReg_keys (s : State) (r : Reg) (b : Byte) : (s.setReg r b).keys = s.keys := rfl
@[simp] theorem State.setReg_mode (s : State) (r : Reg) (b : Byte) : (s.setReg r b).mode = s.mode := rfl
@[simp] theorem State.setReg_disp (s : State) (r : Reg) (b : Byte) : (s.setReg r b).disp = s.disp := rfl
@[simp] theorem State.setReg_run (s : State) (r : Reg) (b : Byte) : (s.setReg r b).run = s.run := rfl
@[simp] theorem State.setReg_fault (s : State) (r : Reg) (b : Byte) : (s.setReg r b).fault = s.fault := rfl
@[simp] theorem State.setReg_batchCnt (s : State) (r : Reg) (b : Byte) : (s.setReg r b).batchCnt = s.batchCnt := rfl
@[simp] theorem State.setReg_redrawReq (s : State) (r : Reg) (b : Byte) : (s.setReg r b).redrawReq = s.redrawReq := rfl
@[simp] theorem State.setReg_waiting (s : State) (r : Reg) (b : Byte) : (s.setReg r b).waiting = s.waiting := rfl
@[simp] theorem State.setReg_stepNo (s : State) (r : Reg) (b : Byte) : (s.setReg r b).stepNo = s.stepNo := rfl
@[simp] theorem State.setReg_rndNo (s : State) (r : Reg) (b : Byte) : (s.setReg r b).rndNo = s.rndNo := rfl
@[simp] theorem State.setReg_byteAt (s : State) (r : Reg) (b : Byte) (q : Nat) : (s.setReg r b).byteAt q = s.byteAt q := rfl
@[simp] theorem State.setReg_pixel (s : State) (r : Reg) (b : Byte) (p q : Nat) : (s.setReg r b).pixel p q = s.pixel p q := rfl

@[simp] theorem State.setRegIf_cfg (s : State) (c : Bool) (r : Reg) (b : Byte) : (s.setRegIf c r b).cfg = s.cfg := rfl
@[simp] theorem State.setRegIf_mem (s : State) (c : Bool) (r : Reg) (b : Byte) : (s.setRegIf c r b).mem = s.mem := rfl
@[simp] theorem State.setRegIf_v (s : State) (c : Bool) (r : Reg) (b : Byte) : (s.setRegIf c r b).v = if c then s.v.set r.val b r.isLt else s.v := rfl
@[simp] theorem State.setRegIf_i (s : State) (c : Bool) (r : Reg) (b : Byte) : (s.setRegIf c r b).i = s.i := rfl
@[simp] theorem State.setRegIf_pc (s : State) (c : Bool) (r : Reg) (b : Byte) : (s.setRegIf c r b).pc = s.pc := rfl
@[simp] theorem State.setRegIf_sp (s : State) (c : Bool) (r : Reg) (b : Byte) : (s.setRegIf c r b).sp = s.sp := rfl
@[simp] theorem State.setRegIf_stack (s : State) (c : Bool) (r : Reg) (b : Byte) : (s.setRegIf c r b).stack = s.stack := rfl
@[simp] theorem State.setRegIf_dt (s : State) (c : Bool) (r : Reg) (b : Byte) : (s.setRegIf c r b).dt = s.dt := rfl
@[simp] theorem State.setRegIf_st (s : State) (c : Bool) (r : Reg) (b : Byte) : (s.setRegIf c r b).st = s.st := rfl
@[simp] theorem State.setRegIf_keys (s : State) (c : Bool) (r : Reg) (b : Byte) : (s.setRegIf c r b).keys = s.keys := rfl
@[simp] theorem State.setRegIf_mode (s : State) (c : Bool) (r : Reg) (b : Byte) : (s.setRegIf c r b).mode = s.mode := rfl
@[simp] theorem State.setRegIf_disp (s : State) (c : Bool) (r : Reg) (b : Byte) : (s.setRegIf c r b).disp = s.disp := rfl
@[simp] theorem State.setRegIf_run (s : State) (c : Bool) (r : Reg) (b : Byte) : (s.setRegIf c r b).run = s.run := rfl
@[simp] theorem State.setRegIf_fault (s : State) (c : Bool) (r : Reg) (b : Byte) : (s.setRegIf c r b).fault = s.fault := rfl
@[simp] theorem State.setRegIf_batchCnt (s : State) (c : Bool) (r : Reg) (b : Byte) : (s.setRegIf c r b).batchCnt = s.batchCnt := rfl
@[simp] theorem State.setRegIf_redrawReq (s : State) (c : Bool) (r : Reg) (b : Byte) : (s.setRegIf c r b).redrawReq = s.redrawReq := rfl
@[simp] theorem State.setRegIf_waiting (s : State) (c : Bool) (r : Reg) (b : Byte) : (s.setRegIf c r b).waiting = s.waiting := rfl
@[simp] theorem State.setRegIf_stepNo (s : State) (c : Bool) (r : Reg) (b : Byte) : (s.setRegIf c r b).stepNo = s.stepNo := rfl
@[simp] theorem State.setRegIf_rndNo (s : State) (c : Bool) (r : Reg) (b : Byte) : (s.setRegIf c r b).rndNo = s.rndNo := rfl
@[simp] theorem State.setRegIf_byteAt (s : State) (c : Bool) (r : Reg) (b : Byte) (q : Nat) : (s.setRegIf c r b).byteAt q = s.byteAt q := rfl
@[simp] theorem State.setRegIf_pixel (s : State) (c : Bool) (r : Reg) (b : Byte) (p q : Nat) : (s.setRegIf c r b).pixel p q = s.pixel p q := rfl

@[simp] theorem State.setI_cfg (s : State) (w : Word) : (s.setI w).cfg = s.cfg := rfl
@[simp] theorem State.setI_mem (s : State) (w : Word) : (s.setI w).mem = s.mem := rfl
@[simp] theorem State.setI_v (s : State) (w : Word) : (s.setI w).v = s.v := rfl
@[simp] theorem State.setI_i (s : State) (w : Word) : (s.setI w).i = w := rfl
@[simp] theorem State.setI_pc (s : State) (w : Word) : (s.setI w).pc = s.pc := rfl
@[simp] theorem State.setI_sp (s : State) (w : Word) : (s.setI w).sp = s.sp := rfl
@[simp] theorem State.setI_stack (s : State) (w : Word) : (s.setI w).stack = s.stack := rfl
@[simp] theorem State.setI_dt (s : State) (w : Word) : (s.setI w).dt = s.dt := rfl
@[simp] theorem State.setI_st (s : State) (w : Word) : (s.setI w).st = s.st := rfl
@[simp] theorem State.setI_keys (s : State) (w : Word) : (s.setI w).keys = s.keys := rfl
@[simp] theorem State.setI_mode (s : State) (w : Word) : (s.setI w).mode = s.mode := rfl
@[simp] theorem State.setI_disp (s : State) (w : Word) : (s.setI w).disp = s.disp := rfl
@[simp] theorem State.setI_run (s : State) (w : Word) : (s.setI w).run = s.run := rfl
@[simp] theorem State.setI_fault (s : State) (w : Word) : (s.setI w).fault = s.fault := rfl
@[simp] theorem State.setI_batchCnt (s : State) (w : Word) : (s.setI w).batchCnt = s.batchCnt := rfl
@[simp] theorem State.setI_redrawReq (s : State) (w : Word) : (s.setI w).redrawReq = s.redrawReq := rfl
@[simp] theorem State.setI_waiting (s : State) (w : Word) : (s.setI w).waiting = s.waiting := rfl
@[simp] theorem State.setI_stepNo (s : State) (w : Word) : (s.setI w).stepNo = s.stepNo := rfl
@[simp] theorem State.setI_rndNo (s : State) (w : Word) : (s.setI w).rndNo = s.rndNo := rfl
@[simp] theorem State.setI_reg (s : State) (w : Word) (q : Reg) : (s.setI w).reg q = s.reg q := rfl
@[simp] theorem State.setI_byteAt (s : State) (w : Word) (q : Nat) : (s.setI w).byteAt q = s.byteAt q := rfl
@[simp] theorem State.setI_pixel (s : State) (w : Word) (p q : Nat) : (s.setI w).pixel p q = s.pixel p q := rfl

@[simp] theorem State.setPc_cfg (s : State) (w : Word) : (s.setPc w).cfg = s.cfg := rfl
@[simp] theorem State.setPc_mem (s : State) (w : Word) : (s.setPc w).mem = s.mem := rfl
@[simp] theorem State.setPc_v (s : State) (w : Word) : (s.setPc w).v = s.v := rfl
@[simp] theorem State.setPc_i (s : State) (w : Word) : (s.setPc w).i = s.i := rfl
@[simp] theorem State.setPc_pc (s : State) (w : Word) : (s.setPc w).pc = w := rfl
@[simp] theorem State.setPc_sp (s : State) (w : Word) : (s.setPc w).sp = s.sp := rfl
@[simp] theorem State.setPc_stack (s : State) (w : Word) : (s.setPc w).stack = s.stack := rfl
@[simp] theorem State.setPc_dt (s : State) (w : Word) : (s.setPc w).dt = s.dt := rfl
@[simp] theorem State.setPc_st (s : State) (w : Word) : (s.setPc w).st = s.st := rfl
@[simp] theorem State.setPc_keys (s : State) (w : Word) : (s.setPc w).keys = s.keys := rfl
@[simp] theorem State.setPc_mode (s : State) (w : Word) : (s.setPc w).mode = s.mode := rfl
@[simp] theorem State.setPc_disp (s : State) (w : Word) : (s.setPc w).disp = s.disp := rfl
@[simp] theorem State.setPc_run (s : State) (w : Word) : (s.setPc w).run = s.run := rfl
@[simp] theorem State.setPc_fault (s : State) (w : Word) : (s.setPc w).fault = s.fault := rfl
@[simp] theorem State.setPc_batchCnt (s : State) (w : Word) : (s.setPc w).batchCnt = s.batchCnt := rfl
@[simp] theorem State.setPc_redrawReq (s : State) (w : Word) : (s.setPc w).redrawReq = s.redrawReq := rfl
@[simp] theorem State.setPc_waiting (s : State) (w : Word) : (s.setPc w).waiting = s.waiting := rfl
@[simp] theorem State.setPc_stepNo (s : State) (w : Word) : (s.setPc w).stepNo = s.stepNo := rfl
@[simp] theorem State.setPc_rndNo (s : State) (w : Word) : (s.setPc w).rndNo = s.rndNo := rfl
@[simp] theorem State.setPc_reg (s : State) (w : Word) (q : Reg) : (s.setPc w).reg q = s.reg q := rfl
@[simp] theorem State.setPc_byteAt (s : State) (w : Word) (q : Nat) : (s.setPc w).byteAt q = s.byteAt q := rfl
@[simp] theorem State.setPc_pixel (s : State) (w : Word) (p q : Nat) : (s.setPc w).pixel p q = s.pixel p q := rfl

@[simp] theorem State.advance_cfg (s : State) : (s.advance).cfg = s.cfg := rfl
@[simp] theorem State.advance_mem (s : State) : (s.advance).mem = s.mem := rfl
@[simp] theorem State.advance_v (s : State) : (s.advance).v = s.v := rfl
@[simp] theorem State.advance_i (s : State) : (s.advance).i = s.i := rfl
@[simp] theorem State.advance_pc (s : State) : (s.advance).pc = s.pc + 2 := rfl
@[simp] theorem State.advance_sp (s : State) : (s.advance).sp = s.sp := rfl
@[simp] theorem State.advance_stack (s : State) : (s.advance).stack = s.stack := rfl
@[simp] theorem State.advance_dt (s : State) : (s.advance).dt = s.dt := rfl
@[simp] theorem State.advance_st (s : State) : (s.advance).st = s.st := rfl
@[simp] theorem State.advance_keys (s : State) : (s.advance).keys = s.keys := rfl
@[simp] theorem State.advance_mode (s : State) : (s.advance).mode = s.mode := rfl
@[simp] theorem State.advance_disp (s : State) : (s.advance).disp = s.disp := rfl
@[simp] theorem State.advance_run (s : State) : (s.advance).run = s.run := rfl
@[simp] theorem State.advance_fault (s : State) : (s.advance).fault = s.fault := rfl
@[simp] theorem State.advance_batchCnt (s : State) : (s.advance).batchCnt = s.batchCnt := rfl
@[simp] theorem State.advance_redrawReq (s : State) : (s.advance).redrawReq = s.redrawReq := rfl
@[simp] theorem State.advance_waiting (s : State) : (s.advance).waiting = s.waiting := rfl
@[simp] theorem State.advance_stepNo (s : State) : (s.advance).stepNo = s.stepNo := rfl
@[simp] theorem State.advance_rndNo (s : State) : (s.advance).rndNo = s.rndNo := rfl
@[simp] theorem State.advance_reg (s : State) (q : Reg) : (s.advance).reg q = s.reg q := rfl
@[simp] theorem State.advance_byteAt (s : State) (q : Nat) : (s.advance).byteAt q = s.byteAt q := rfl
@[simp] theorem State.advance_pixel (s : State) (p q : Nat) : (s.advance).pixel p q = s.pixel p q := rfl

@[simp] theorem State.skipIf_cfg (s : State) (c : Bool) : (s.skipIf c).cfg = s.cfg := rfl
@[simp] theorem State.skipIf_mem (s : State) (c : Bool) : (s.skipIf c).mem = s.mem := rfl
@[simp] theorem State.skipIf_v (s : State) (c : Bool) : (s.skipIf c).v = s.v := rfl
@[simp] theorem State.skipIf_i (s : State) (c : Bool) : (s.skipIf c).i = s.i := rfl
@[simp] theorem State.skipIf_pc (s : State) (c : Bool) : (s.skipIf c).pc = if c then s.pc + 2 else s.pc := rfl
@[simp] theorem State.skipIf_sp (s : State) (c : Bool) : (s.skipIf c).sp = s.sp := rfl
@[simp] theorem State.skipIf_stack (s : State) (c : Bool) : (s.skipIf c).stack = s.stack := rfl
@[simp] theorem State.skipIf_dt (s : State) (c : Bool) : (s.skipIf c).dt = s.dt := rfl
@[simp] theorem State.skipIf_st (s : State) (c : Bool) : (s.skipIf c).st = s.st := rfl
@[simp] theorem State.skipIf_keys (s : State) (c : Bool) : (s.skipIf c).keys = s.keys := rfl
@[simp] theorem State.skipIf_mode (s : State) (c : Bool) : (s.skipIf c).mode = s.mode := rfl
@[simp] theorem State.skipIf_disp (s : State) (c : Bool) : (s.skipIf c).disp = s.disp := rfl
@[simp] theorem State.skipIf_run (s : State) (c : Bool) : (s.skipIf c).run = s.run := rfl
@[simp] theorem State.skipIf_fault (s : State) (c : Bool) : (s.skipIf c).fault = s.fault := rfl
@[simp] theorem State.skipIf_batchCnt (s : State) (c : Bool) : (s.skipIf c).batchCnt = s.batchCnt := rfl
@[simp] theorem State.skipIf_redrawReq (s : State) (c : Bool) : (s.skipIf c).redrawReq = s.redrawReq := rfl
@[simp] theorem State.skipIf_waiting (s : State) (c : Bool) : (s.skipIf c).waiting = s.waiting := rfl
@[simp] theorem State.skipIf_stepNo (s : State) (c : Bool) : (s.skipIf c).stepNo = s.stepNo := rfl
@[simp] theorem State.skipIf_rndNo (s : State) (c : Bool) : (s.skipIf c).rndNo = s.rndNo := rfl
@[simp] theorem State.skipIf_reg (s : State) (c : Bool) (q : Reg) : (s.skipIf c).reg q = s.reg q := rfl
@[simp] theorem State.skipIf_byteAt (s : State) (c : Bool) (q : Nat) : (s.skipIf c).byteAt q = s.byteAt q := rfl
@[simp] theorem State.skipIf_pixel (s : State) (c : Bool) (p q : Nat) : (s.skipIf c).pixel p q = s.pixel p q := rfl

@[simp] theorem State.rewind_cfg (s : State) : (s.rewind).cfg = s.cfg := rfl
@[simp] theorem State.rewind_mem (s : State) : (s.rewind).mem = s.mem := rfl
@[simp] theorem State.rewind_v (s : State) : (s.rewind).v = s.v := rfl
@[simp] theorem State.rewind_i (s : State) : (s.rewind).i = s.i := rfl
@[simp] theorem State.rewind_pc (s : State) : (s.rewind).pc = s.pc - 2 := rfl
@[simp] theorem State.rewind_sp (s : State) : (s.rewind).sp = s.sp := rfl
@[simp] theorem State.rewind_stack (s : State) : (s.rewind).stack = s.stack := rfl
@[simp] theorem State.rewind_dt (s : State) : (s.rewind).dt = s.dt := rfl
@[simp] theorem State.rewind_st (s : State) : (s.rewind).st = s.st := rfl
@[simp] theorem State.rewind_keys (s : State) : (s.rewind).keys = s.keys := rfl
@[simp] theorem State.rewind_mode (s : State) : (s.rewind).mode = s.mode := rfl
@[simp] theorem State.rewind_disp (s : State) : (s.rewind).disp = s.disp := rfl
@[simp] theorem State.rewind_run (s : State) : (s.rewind).run = s.run := rfl
@[simp] theorem State.rewind_fault (s : State) : (s.rewind).fault = s.fault := rfl
@[simp] theorem State.rewind_batchCnt (s : State) : (s.rewind).batchCnt = s.batchCnt := rfl
@[simp] theorem State.rewind_redrawReq (s : State) : (s.rewind).redrawReq = s.redrawReq := rfl
@[simp] theorem State.rewind_waiting (s : State) : (s.rewind).waiting = true := rfl
@[simp] theorem State.rewind_stepNo (s : State) : (s.rewind).stepNo = s.stepNo := rfl
@[simp] theorem State.rewind_rndNo (s : State) : (s.rewind).rndNo = s.rndNo := rfl
@[simp] theorem State.rewind_reg (s : State) (q : Reg) : (s.rewind).reg q = s.reg q := rfl
@[simp] theorem State.rewind_byteAt (s : State) (q : Nat) : (s.rewind).byteAt q = s.byteAt q := rfl
@[simp] theorem State.rewind_pixel (s : State) (p q : Nat) : (s.rewind).pixel p q = s.pixel p q := rfl

@[simp] theorem State.push_cfg (s : State) (w : Word) : (s.push w).cfg = s.cfg := rfl
@[simp] theorem State.push_mem (s : State) (w : Word) : (s.push w).mem = s.mem := rfl
@[simp] theorem State.push_v (s : State) (w : Word) : (s.push w).v = s.v := rfl
@[simp] theorem State.push_i (s : State) (w : Word) : (s.push w).i = s.i := rfl
@[simp] theorem State.push_pc (s : State) (w : Word) : (s.push w).pc = s.pc := rfl
@[simp] theorem State.push_sp (s : State) (w : Word) : (s.push w).sp = ⟨min (s.sp.val + 1) 128, by omega⟩ := rfl
@[simp] theorem State.push_stack (s : State) (w : Word) : (s.push w).stack = s.stack.setIfInBounds s.sp.val w := rfl
@[simp] theorem State.push_dt (s : State) (w : Word) : (s.push w).dt = s.dt := rfl
@[simp] theorem State.push_st (s : State) (w : Word) : (s.push w).st = s.st := rfl
@[simp] theorem State.push_keys (s : State) (w : Word) : (s.push w).keys = s.keys := rfl
@[simp] theorem State.push_mode (s : State) (w : Word) : (s.push w).mode = s.mode := rfl
@[simp] theorem State.push_disp (s : State) (w : Word) : (s.push w).disp = s.disp := rfl
@[simp] theorem State.push_run (s : State) (w : Word) : (s.push w).run = s.run := rfl
@[simp] theorem State.push_fault (s : State) (w : Word) : (s.push w).fault = s.fault := rfl
@[simp] theorem State.push_batchCnt (s : State) (w : Word) : (s.push w).batchCnt = s.batchCnt := rfl
@[simp] theorem State.push_redrawReq (s : State) (w : Word) : (s.push w).redrawReq = s.redrawReq := rfl
@[simp] theorem State.push_waiting (s : State) (w : Word) : (s.push w).waiting = s.waiting := rfl
@[simp] theorem State.push_stepNo (s : State) (w : Word) : (s.push w).stepNo = s.stepNo := rfl
@[simp] theorem State.push_rndNo (s : State) (w : Word) : (s.push w).rndNo = s.rndNo := rfl
@[simp] theorem State.push_reg (s : State) (w : Word) (q : Reg) : (s.push w).reg q = s.reg q := rfl
@[simp] theorem State.push_byteAt (s : State) (w : Word) (q : Nat) : (s.push w).byteAt q = s.byteAt q := rfl
@[simp] theorem State.push_pixel (s : State) (w : Word) (p q : Nat) : (s.push w).pixel p q = s.pixel p q := rfl

@[simp] theorem State.pop_cfg (s : State) : (s.pop).cfg = s.cfg := rfl
@[simp] theorem State.pop_mem (s : State) : (s.pop).mem = s.mem := rfl
@[simp] theorem State.pop_v (s : State) : (s.pop).v = s.v := rfl
@[simp] theorem State.pop_i (s : State) : (s.pop).i = s.i := rfl
@[simp] theorem State.pop_pc (s : State) : (s.pop).pc = s.stack[s.sp.val - 1]'(by omega) := rfl
@[simp] theorem State.pop_sp (s : State) : (s.pop).sp = ⟨s.sp.val - 1, by omega⟩ := rfl
@[simp] theorem State.pop_stack (s : State) : (s.pop).stack = s.stack := rfl
@[simp] theorem State.pop_dt (s : State) : (s.pop).dt = s.dt := rfl
@[simp] theorem State.pop_st (s : State) : (s.pop).st = s.st := rfl
@[simp] theorem State.pop_keys (s : State) : (s.pop).keys = s.keys := rfl
@[simp] theorem State.pop_mode (s : State) : (s.pop).mode = s.mode := rfl
@[simp] theorem State.pop_disp (s : State) : (s.pop).disp = s.disp := rfl
@[simp] theorem State.pop_run (s : State) : (s.pop).run = s.run := rfl
@[simp] theorem State.pop_fault (s : State) : (s.pop).fault = s.fault := rfl
@[simp] theorem State.pop_batchCnt (s : State) : (s.pop).batchCnt = s.batchCnt := rfl
@[simp] theorem State.pop_redrawReq (s : State) : (s.pop).redrawReq = s.redrawReq := rfl
@[simp] theorem State.pop_waiting (s : State) : (s.pop).waiting = s.waiting := rfl
@[simp] theorem State.pop_stepNo (s : State) : (s.pop).stepNo = s.stepNo := rfl
@[simp] theorem State.pop_rndNo (s : State) : (s.pop).rndNo = s.rndNo := rfl
@[simp] theorem State.pop_reg (s : State) (q : Reg) : (s.pop).reg q = s.reg q := rfl
@[simp] theorem State.pop_byteAt (s : State) (q : Nat) : (s.pop).byteAt q = s.byteAt q := rfl
@[simp] theorem State.pop_pixel (s : State) (p q : Nat) : (s.pop).pixel p q = s.pixel p q := rfl

@[simp] theorem State.setDt_cfg (s : State) (w : BitVec 16) : (s.setDt w).cfg = s.cfg := rfl
@[simp] theorem State.setDt_mem (s : State) (w : BitVec 16) : (s.setDt w).mem = s.mem := rfl
@[simp] theorem State.setDt_v (s : State) (w : BitVec 16) : (s.setDt w).v = s.v := rfl
@[simp] theorem State.setDt_i (s : State) (w : BitVec 16) : (s.setDt w).i = s.i := rfl
@[simp] theorem State.setDt_pc (s : State) (w : BitVec 16) : (s.setDt w).pc = s.pc := rfl
@[simp] theorem State.setDt_sp (s : State) (w : BitVec 16) : (s.setDt w).sp = s.sp := rfl
@[simp] theorem State.setDt_stack (s : State) (w : BitVec 16) : (s.setDt w).stack = s.stack := rfl
@[simp] theorem State.setDt_dt (s : State) (w : BitVec 16) : (s.setDt w).dt = w := rfl
@[simp] theorem State.setDt_st (s : State) (w : BitVec 16) : (s.setDt w).st = s.st := rfl
@[simp] theorem State.setDt_keys (s : State) (w : BitVec 16) : (s.setDt w).keys = s.keys := rfl
@[simp] theorem State.setDt_mode (s : State) (w : BitVec 16) : (s.setDt w).mode = s.mode := rfl
@[simp] theorem State.setDt_disp (s : State) (w : BitVec 16) : (s.setDt w).disp = s.disp := rfl
@[simp] theorem State.setDt_run (s : State) (w : BitVec 16) : (s.setDt w).run = s.run := rfl
@[simp] theorem State.setDt_fault (s : State) (w : BitVec 16) : (s.setDt w).fault = s.fault := rfl
@[simp] theorem State.setDt_batchCnt (s : State) (w : BitVec 16) : (s.setDt w).batchCnt = s.batchCnt := rfl
@[simp] theorem State.setDt_redrawReq (s : State) (w : BitVec 16) : (s.setDt w).redrawReq = s.redrawReq := rfl
@[simp] theorem State.setDt_waiting (s : State) (w : BitVec 16) : (s.setDt w).waiting = s.waiting := rfl
@[simp] theorem State.setDt_stepNo (s : State) (w : BitVec 16) : (s.setDt w).stepNo = s.stepNo := rfl
@[simp] theorem State.setDt_rndNo (s : State) (w : BitVec 16) : (s.setDt w).rndNo = s.rndNo := rfl
@[simp] theorem State.setDt_reg (s : State) (w : BitVec 16) (q : Reg) : (s.setDt w).reg q = s.reg q := rfl
@[simp] theorem State.setDt_byteAt (s : State) (w : BitVec 16) (q : Nat) : (s.setDt w).byteAt q = s.byteAt q := rfl
@[simp] theorem State.setDt_pixel (s : State) (w : BitVec 16) (p q : Nat) : (s.setDt w).pixel p q = s.pixel p q := rfl

@[simp] theorem State.setSt_cfg (s : State) (w : BitVec 16) : (s.setSt w).cfg = s.cfg := rfl
@[simp] theorem State.setSt_mem (s : State) (w : BitVec 16) : (s.setSt w).mem = s.mem := rfl
@[simp] theorem State.setSt_v (s : State) (w : BitVec 16) : (s.setSt w).v = s.v := rfl
@[simp] theorem State.setSt_i (s : State) (w : BitVec 16) : (s.setSt w).i = s.i := rfl
@[simp] theorem State.setSt_pc (s : State) (w : BitVec 16) : (s.setSt w).pc = s.pc := rfl
@[simp] theorem State.setSt_sp (s : State) (w : BitVec 16) : (s.setSt w).sp = s.sp := rfl
@[simp] theorem State.setSt_stack (s : State) (w : BitVec 16) : (s.setSt w).stack = s.stack := rfl
@[simp] theorem State.setSt_dt (s : State) (w : BitVec 16) : (s.setSt w).dt = s.dt := rfl
@[simp] theorem State.setSt_st (s : State) (w : BitVec 16) : (s.setSt w).st = w := rfl
@[simp] theorem State.setSt_keys (s : State) (w : BitVec 16) : (s.setSt w).keys = s.keys := rfl
@[simp] theorem State.setSt_mode (s : State) (w : BitVec 16) : (s.setSt w).mode = s.mode := rfl
@[simp] theorem State.setSt_disp (s : State) (w : BitVec 16) : (s.setSt w).disp = s.disp := rfl
@[simp] theorem State.setSt_run (s : State) (w : BitVec 16) : (s.setSt w).run = s.run := rfl
@[simp] theorem State.setSt_fault (s : State) (w : BitVec 16) : (s.setSt w).fault = s.fault := rfl
@[simp] theorem State.setSt_batchCnt (s : State) (w : BitVec 16) : (s.setSt w).batchCnt = s.batchCnt := rfl
@[simp] theorem State.setSt_redrawReq (s : State) (w : BitVec 16) : (s.setSt w).redrawReq = s.redrawReq := rfl
@[simp] theorem State.setSt_waiting (s : State) (w : BitVec 16) : (s.setSt w).waiting = s.waiting := rfl
@[simp] theorem State.setSt_stepNo (s : State) (w : BitVec 16) : (s.setSt w).stepNo = s.stepNo := rfl
@[simp] theorem State.setSt_rndNo (s : State) (w : BitVec 16) : (s.setSt w).rndNo = s.rndNo := rfl
@[simp] theorem State.setSt_reg (s : State) (w : BitVec 16) (q : Reg) : (s.setSt w).reg q = s.reg q := rfl
@[simp] theorem State.setSt_byteAt (s : State) (w : BitVec 16) (q : Nat) : (s.setSt w).byteAt q = s.byteAt q := rfl
@[simp] theorem State.setSt_pixel (s : State) (w : BitVec 16) (p q : Nat) : (s.setSt w).pixel p q = s.pixel p q := rfl

@[simp] theorem State.tookRnd_cfg (s : State) : (s.tookRnd).cfg = s.cfg := rfl
@[simp] theorem State.tookRnd_mem (s : State) : (s.tookRnd).mem = s.mem := rfl
@[simp] theorem State.tookRnd_v (s : State) : (s.tookRnd).v = s.v := rfl
@[simp] theorem State.tookRnd_i (s : State) : (s.tookRnd).i = s.i := rfl
@[simp] theorem State.tookRnd_pc (s : State) : (s.tookRnd).pc = s.pc := rfl
@[simp] theorem State.tookRnd_sp (s : State) : (s.tookRnd).sp = s.sp := rfl
@[simp] theorem State.tookRnd_stack (s : State) : (s.tookRnd).stack = s.stack := rfl
@[simp] theorem State.tookRnd_dt (s : State) : (s.tookRnd).dt = s.dt := rfl
@[simp] theorem State.tookRnd_st (s : State) : (s.tookRnd).st = s.st := rfl
@[simp] theorem State.tookRnd_keys (s : State) : (s.tookRnd).keys = s.keys := rfl
@[simp] theorem State.tookRnd_mode (s : State) : (s.tookRnd).mode = s.mode := rfl
@[simp] theorem State.tookRnd_disp (s : State) : (s.tookRnd).disp = s.disp := rfl
@[simp] theorem State.tookRnd_run (s : State) : (s.tookRnd).run = s.run := rfl
@[simp] theorem State.tookRnd_fault (s : State) : (s.tookRnd).fault = s.fault := rfl
@[simp] theorem State.tookRnd_batchCnt (s : State) : (s.tookRnd).batchCnt = s.batchCnt := rfl
@[simp] theorem State.tookRnd_redrawReq (s : State) : (s.tookRnd).redrawReq = s.redrawReq := rfl
@[simp] theorem State.tookRnd_waiting (s : State) : (s.tookRnd).waiting = s.waiting := rfl
@[simp] theorem State.tookRnd_stepNo (s : State) : (s.tookRnd).stepNo = s.stepNo := rfl
@[simp] theorem State.tookRnd_rndNo (s : State) : (s.tookRnd).rndNo = s.rndNo + 1 := rfl
@[simp] theorem State.tookRnd_reg (s : State) (q : Reg) : (s.tookRnd).reg q = s.reg q := rfl
@[simp] theorem State.tookRnd_byteAt (s : State) (q : Nat) : (s.tookRnd).byteAt q = s.byteAt q := rfl
@[simp] theorem State.tookRnd_pixel (s : State) (p q : Nat) : (s.tookRnd).pixel p q = s.pixel p q := rfl

@[simp] theorem State.setDisp_cfg (s : State) (d : List Bool) : (s.setDisp d).cfg = s.cfg := rfl
@[simp] theorem State.setDisp_mem (s : State) (d : List Bool) : (s.setDisp d).mem = s.mem := rfl
@[simp] theorem State.setDisp_v (s : State) (d : List Bool) : (s.setDisp d).v = s.v := rfl
@[simp] theorem State.setDisp_i (s : State) (d : List Bool) : (s.setDisp d).i = s.i := rfl
@[simp] theorem State.setDisp_pc (s : State) (d : List Bool) : (s.setDisp d).pc = s.pc := rfl
@[simp] theorem State.setDisp_sp (s : State) (d : List Bool) : (s.setDisp d).sp = s.sp := rfl
@[simp] theorem State.setDisp_stack (s : State) (d : List Bool) : (s.setDisp d).stack = s.stack := rfl
@[simp] theorem State.setDisp_dt (s : State) (d : List Bool) : (s.setDisp d).dt = s.dt := rfl
@[simp] theorem State.setDisp_st (s : State) (d : List Bool) : (s.setDisp d).st = s.st := rfl
@[simp] theorem State.setDisp_keys (s : State) (d : List Bool) : (s.setDisp d).keys = s.keys := rfl
@[simp] theorem State.setDisp_mode (s : State) (d : List Bool) : (s.setDisp d).mode = s.mode := rfl
@[simp] theorem State.setDisp_disp (s : State) (d : List Bool) : (s.setDisp d).disp = d := rfl
@[simp] theorem State.setDisp_run (s : State) (d : List Bool) : (s.setDisp d).run = s.run := rfl
@[simp] theorem State.setDisp_fault (s : State) (d : List Bool) : (s.setDisp d).fault = s.fault := rfl
@[simp] theorem State.setDisp_batchCnt (s : State) (d : List Bool) : (s.setDisp d).batchCnt = s.batchCnt := rfl
@[simp] theorem State.setDisp_redrawReq (s : State) (d : List Bool) : (s.setDisp d).redrawReq = s.redrawReq := rfl
@[simp] theorem State.setDisp_waiting (s : State) (d : List Bool) : (s.setDisp d).waiting = s.waiting := rfl
@[simp] theorem State.setDisp_stepNo (s : State) (d : List Bool) : (s.setDisp d).stepNo = s.stepNo := rfl
@[simp] theorem State.setDisp_rndNo (s : State) (d : List Bool) : (s.setDisp d).rndNo = s.rndNo := rfl
@[simp] theorem State.setDisp_reg (s : State) (d : List Bool) (q : Reg) : (s.setDisp d).reg q = s.reg q := rfl
@[simp] theorem State.setDisp_byteAt (s : State) (d : List Bool) (q : Nat) : (s.setDisp d).byteAt q = s.byteAt q := rfl

@[simp] theorem State.switchMode_cfg (s : State) (m : Mode) : (s.switchMode m).cfg = s.cfg := rfl
@[simp] theorem State.switchMode_mem (s : State) (m : Mode) : (s.switchMode m).mem = s.mem := rfl
@[simp] theorem State.switchMode_v (s : State) (m : Mode) : (s.switchMode m).v = s.v := rfl
@[simp] theorem State.switchMode_i (s : State) (m : Mode) : (s.switchMode m).i = s.i := rfl
@[simp] theorem State.switchMode_pc (s : State) (m : Mode) : (s.switchMode m).pc = s.pc := rfl
@[simp] theorem State.switchMode_sp (s : State) (m : Mode) : (s.switchMode m).sp = s.sp := rfl
@[simp] theorem State.switchMode_stack (s : State) (m : Mode) : (s.switchMode m).stack = s.stack := rfl
@[simp] theorem State.switchMode_dt (s : State) (m : Mode) : (s.switchMode m).dt = s.dt := rfl
@[simp] theorem State.switchMode_st (s : State) (m : Mode) : (s.switchMode m).st = s.st := rfl
@[simp] theorem State.switchMode_keys (s : State) (m : Mode) : (s.switchMode m).keys = s.keys := rfl
@[simp] theorem State.switchMode_mode (s : State) (m : Mode) : (s.switchMode m).mode = m := rfl
@[simp] theorem State.switchMode_disp (s : State) (m : Mode) : (s.switchMode m).disp = List.replicate (m.cols * m.rows) false := rfl
@[simp] theorem State.switchMode_run (s : State) (m : Mode) : (s.switchMode m).run = s.run := rfl
@[simp] theorem State.switchMode_fault (s : State) (m : Mode) : (s.switchMode m).fault = s.fault := rfl
@[simp] theorem State.switchMode_batchCnt (s : State) (m : Mode) : (s.switchMode m).batchCnt = s.batchCnt := rfl
@[simp] theorem State.switchMode_redrawReq (s : State) (m : Mode) : (s.switchMode m).redrawReq = s.redrawReq := rfl
@[simp] theorem State.switchMode_waiting (s : State) (m : Mode) : (s.switchMode m).waiting = s.waiting := rfl
@[simp] theorem State.switchMode_stepNo (s : State) (m : Mode) : (s.switchMode m).stepNo = s.stepNo := rfl
@[simp] theorem State.switchMode_rndNo (s : State) (m : Mode) : (s.switchMode m).rndNo = s.rndNo := rfl
@[simp] theorem State.switchMode_reg (s : State) (m : Mode) (q : Reg) : (s.switchMode m).reg q = s.reg q := rfl
@[simp] theorem State.switchMode_byteAt (s : State) (m : Mode) (q : Nat) : (s.switchMode m).byteAt q = s.byteAt q := rfl

@[simp] theorem State.redraw_cfg (s : State) : (s.redraw).cfg = s.cfg := rfl
@[simp] theorem State.redraw_mem (s : State) : (s.redraw).mem = s.mem := rfl
@[simp] theorem State.redraw_v (s : State) : (s.redraw).v = s.v := rfl
@[simp] theorem State.redraw_i (s : State) : (s.redraw).i = s.i := rfl
@[simp] theorem State.redraw_pc (s : State) : (s.redraw).pc = s.pc := rfl
@[simp] theorem State.redraw_sp (s : State) : (s.redraw).sp = s.sp := rfl
@[simp] theorem State.redraw_stack (s : State) : (s.redraw).stack = s.stack := rfl
@[simp] theorem State.redraw_dt (s : State) : (s.redraw).dt = s.dt := rfl
@[simp] theorem State.redraw_st (s : State) : (s.redraw).st = s.st := rfl
@[simp] theorem State.redraw_keys (s : State) : (s.redraw).keys = s.keys := rfl
@[simp] theorem State.redraw_mode (s : State) : (s.redraw).mode = s.mode := rfl
@[simp] theorem State.redraw_disp (s : State) : (s.redraw).disp = s.disp := rfl
@[simp] theorem State.redraw_run (s : State) : (s.redraw).run = s.run := rfl
@[simp] theorem State.redraw_fault (s : State) : (s.redraw).fault = s.fault := rfl
@[simp] theorem State.redraw_batchCnt (s : State) : (s.redraw).batchCnt = s.batchCnt := rfl
@[simp] theorem State.redraw_redrawReq (s : State) : (s.redraw).redrawReq = true := rfl
@[simp] theorem State.redraw_waiting (s : State) : (s.redraw).waiting = s.waiting := rfl
@[simp] theorem State.redraw_stepNo (s : State) : (s.redraw).stepNo = s.stepNo := rfl
@[simp] theorem State.redraw_rndNo (s : State) : (s.redraw).rndNo = s.rndNo := rfl
@[simp] theorem State.redraw_reg (s : State) (q : Reg) : (s.redraw).reg q = s.reg q := rfl
@[simp] theorem State.redraw_byteAt (s : State) (q : Nat) : (s.redraw).byteAt q = s.byteAt q := rfl
@[simp] theorem State.redraw_pixel (s : State) (p q : Nat) : (s.redraw).pixel p q = s.pixel p q := rfl

@[simp] theorem State.putByte_cfg (s : State) (a : Nat) (b : Byte) : (s.putByte a b).cfg = s.cfg := rfl
@[simp] theorem State.putByte_mem (s : State) (a : Nat) (b : Byte) : (s.putByte a b).mem = Memory.write (Memory.background s.cfg a) s.mem a b := rfl
@[simp] theorem State.putByte_v (s : State) (a : Nat) (b : Byte) : (s.putByte a b).v = s.v := rfl
@[simp] theorem State.putByte_i (s : State) (a : Nat) (b : Byte) : (s.putByte a b).i = s.i := rfl
@[simp] theorem State.putByte_pc (s : State) (a : Nat) (b : Byte) : (s.putByte a b).pc = s.pc := rfl
@[simp] theorem State.putByte_sp (s : State) (a : Nat) (b : Byte) : (s.putByte a b).sp = s.sp := rfl
@[simp] theorem State.putByte_stack (s : State) (a : Nat) (b : Byte) : (s.putByte a b).stack = s.stack := rfl
@[simp] theorem State.putByte_dt (s : State) (a : Nat) (b : Byte) : (s.putByte a b).dt = s.dt := rfl
@[simp] theorem State.putByte_st (s : State) (a : Nat) (b : Byte) : (s.putByte a b).st = s.st := rfl
@[simp] theorem State.putByte_keys (s : State) (a : Nat) (b : Byte) : (s.putByte a b).keys = s.keys := rfl
@[simp] theorem State.putByte_mode (s : State) (a : Nat) (b : Byte) : (s.putByte a b).mode = s.mode := rfl
@[simp] theorem State.putByte_disp (s : State) (a : Nat) (b : Byte) : (s.putByte a b).disp = s.disp := rfl
@[simp] theorem State.putByte_run (s : State) (a : Nat) (b : Byte) : (s.putByte a b).run = s.run := rfl
@[simp] theorem State.putByte_fault (s : State) (a : Nat) (b : Byte) : (s.putByte a b).fault = s.fault := rfl
@[simp] theorem State.putByte_batchCnt (s : State) (a : Nat) (b : Byte) : (s.putByte a b).batchCnt = s.batchCnt := rfl
@[simp] theorem State.putByte_redrawReq (s : State) (a : Nat) (b : Byte) : (s.putByte a b).redrawReq = s.redrawReq := rfl
@[simp] theorem State.putByte_waiting (s : State) (a : Nat) (b : Byte) : (s.putByte a b).waiting = s.waiting := rfl
@[simp] theorem State.putByte_stepNo (s : State) (a : Nat) (b : Byte) : (s.putByte a b).stepNo = s.stepNo := rfl
@[simp] theorem State.putByte_rndNo (s : State) (a : Nat) (b : Byte) : (s.putByte a b).rndNo = s.rndNo := rfl
@[simp] theorem State.putByte_reg (s : State) (a : Nat) (b : Byte) (q : Reg) : (s.putByte a b).reg q = s.reg q := rfl
@[simp] theorem State.putByte_pixel (s : State) (a : Nat) (b : Byte) (p q : Nat) : (s.putByte a b).pixel p q = s.pixel p q := rfl

@[simp] theorem State.raise_cfg (s : State) (k : FaultKind) (n : Nat) (w : Option Word) : (s.raise k n w).cfg = s.cfg := rfl
@[simp] theorem State.raise_mem (s : State) (k : FaultKind) (n : Nat) (w : Option Word) : (s.raise k n w).mem = s.mem := rfl
@[simp] theorem State.raise_v (s : State) (k : FaultKind) (n : Nat) (w : Option Word) : (s.raise k n w).v = s.v := rfl
@[simp] theorem State.raise_i (s : State) (k : FaultKind) (n : Nat) (w : Option Word) : (s.raise k n w).i = s.i := rfl
@[simp] theorem State.raise_pc (s : State) (k : FaultKind) (n : Nat) (w : Option Word) : (s.raise k n w).pc = s.pc := rfl
@[simp] theorem State.raise_sp (s : State) (k : FaultKind) (n : Nat) (w : Option Word) : (s.raise k n w).sp = s.sp := rfl
@[simp] theorem State.raise_stack (s : State) (k : FaultKind) (n : Nat) (w : Option Word) : (s.raise k n w).stack = s.stack := rfl
@[simp] theorem State.raise_dt (s : State) (k : FaultKind) (n : Nat) (w : Option Word) : (s.raise k n w).dt = s.dt := rfl
@[simp] theorem State.raise_st (s : State) (k : FaultKind) (n : Nat) (w : Option Word) : (s.raise k n w).st = s.st := rfl
@[simp] theorem State.raise_keys (s : State) (k : FaultKind) (n : Nat) (w : Option Word) : (s.raise k n w).keys = s.keys := rfl
@[simp] theorem State.raise_mode (s : State) (k : FaultKind) (n : Nat) (w : Option Word) : (s.raise k n w).mode = s.mode := rfl
@[simp] theorem State.raise_disp (s : State) (k : FaultKind) (n : Nat) (w : Option Word) : (s.raise k n w).disp = s.disp := rfl
@[simp] theorem State.raise_run (s : State) (k : FaultKind) (n : Nat) (w : Option Word) : (s.raise k n w).run = .halted := rfl
@[simp] theorem State.raise_fault (s : State) (k : FaultKind) (n : Nat) (w : Option Word) : (s.raise k n w).fault = some ⟨k, n, s.pc, w⟩ := rfl
@[simp] theorem State.raise_batchCnt (s : State) (k : FaultKind) (n : Nat) (w : Option Word) : (s.raise k n w).batchCnt = s.batchCnt := rfl
@[simp] theorem State.raise_redrawReq (s : State) (k : FaultKind) (n : Nat) (w : Option Word) : (s.raise k n w).redrawReq = s.redrawReq := rfl
@[simp] theorem State.raise_waiting (s : State) (k : FaultKind) (n : Nat) (w : Option Word) : (s.raise k n w).waiting = s.waiting := rfl
@[simp] theorem State.raise_stepNo (s : State) (k : FaultKind) (n : Nat) (w : Option Word) : (s.raise k n w).stepNo = s.stepNo := rfl
@[simp] theorem State.raise_rndNo (s : State) (k : FaultKind) (n : Nat) (w : Option Word) : (s.raise k n w).rndNo = s.rndNo := rfl
@[simp] theorem State.raise_reg (s : State) (k : FaultKind) (n : Nat) (w : Option Word) (q : Reg) : (s.raise k n w).reg q = s.reg q := rfl
@[simp] theorem State.raise_byteAt (s : State) (k : FaultKind) (n : Nat) (w : Option Word) (q : Nat) : (s.raise k n w).byteAt q = s.byteAt q := rfl
@[simp] theorem State.raise_pixel (s : State) (k : FaultKind) (n : Nat) (w : Option Word) (p q : Nat) : (s.raise k n w).pixel p q = s.pixel p q := rfl

@[simp] theorem State.tick_cfg (s : State) : (s.tick).cfg = s.cfg := rfl
@[simp] theorem State.tick_mem (s : State) : (s.tick).mem = s.mem := rfl
@[simp] theorem State.tick_v (s : State) : (s.tick).v = s.v := rfl
@[simp] theorem State.tick_i (s : State) : (s.tick).i = s.i := rfl
@[simp] theorem State.tick_pc (s : State) : (s.tick).pc = s.pc := rfl
@[simp] theorem State.tick_sp (s : State) : (s.tick).sp = s.sp := rfl
@[simp] theorem State.tick_stack (s : State) : (s.tick).stack = s.stack := rfl
@[simp] theorem State.tick_dt (s : State) : (s.tick).dt = tickDown s.dt := rfl
@[simp] theorem State.tick_st (s : State) : (s.tick).st = if s.cfg.hasSoundTimer then tickDown s.st else s.st := rfl
@[simp] theorem State.tick_keys (s : State) : (s.tick).keys = s.keys := rfl
@[simp] theorem State.tick_mode (s : State) : (s.tick).mode = s.mode := rfl
@[simp] theorem State.tick_disp (s : State) : (s.tick).disp = s.disp := rfl
@[simp] theorem State.tick_run (s : State) : (s.tick).run = s.run := rfl
@[simp] theorem State.tick_fault (s : State) : (s.tick).fault = s.fault := rfl
@[simp] theorem State.tick_batchCnt (s : State) : (s.tick).batchCnt = s.batchCnt := rfl
@[simp] theorem State.tick_redrawReq (s : State) : (s.tick).redrawReq = s.redrawReq := rfl
@[simp] theorem State.tick_waiting (s : State) : (s.tick).waiting = s.waiting := rfl
@[simp] theorem State.tick_stepNo (s : State) : (s.tick).stepNo = s.stepNo := rfl
@[simp] theorem State.tick_rndNo (s : State) : (s.tick).rndNo = s.rndNo := rfl
@[simp] theorem State.tick_reg (s : State) (q : Reg) : (s.tick).reg q = s.reg q := rfl
@[simp] theorem State.tick_byteAt (s : State) (q : Nat) : (s.tick).byteAt q = s.byteAt q := rfl
@[simp] theorem State.tick_pixel (s : State) (p q : Nat) : (s.tick).pixel p q = s.pixel p q := rfl

@[simp] theorem State.ticks_cfg (s : State) (n : Nat) : (s.ticks n).cfg = s.cfg := rfl
@[simp] theorem State.ticks_mem (s : State) (n : Nat) : (s.ticks n).mem = s.mem := rfl
@[simp] theorem State.ticks_v (s : State) (n : Nat) : (s.ticks n).v = s.v := rfl
@[simp] theorem State.ticks_i (s : State) (n : Nat) : (s.ticks n).i = s.i := rfl
@[simp] theorem State.ticks_pc (s : State) (n : Nat) : (s.ticks n).pc = s.pc := rfl
@[simp] theorem State.ticks_sp (s : State) (n : Nat) : (s.ticks n).sp = s.sp := rfl
@[simp] theorem State.ticks_stack (s : State) (n : Nat) : (s.ticks n).stack = s.stack := rfl
@[simp] theorem State.ticks_dt (s : State) (n : Nat) : (s.ticks n).dt = BitVec.ofNat 16 (s.dt.toNat - n) := rfl
@[simp] theorem State.ticks_st (s : State) (n : Nat) : (s.ticks n).st = if s.cfg.hasSoundTimer then BitVec.ofNat 16 (s.st.toNat - n) else s.st := rfl
@[simp] theorem State.ticks_keys (s : State) (n : Nat) : (s.ticks n).keys = s.keys := rfl
@[simp] theorem State.ticks_mode (s : State) (n : Nat) : (s.ticks n).mode = s.mode := rfl
@[simp] theorem State.ticks_disp (s : State) (n : Nat) : (s.ticks n).disp = s.disp := rfl
@[simp] theorem State.ticks_run (s : State) (n : Nat) : (s.ticks n).run = s.run := rfl
@[simp] theorem State.ticks_fault (s : State) (n : Nat) : (s.ticks n).fault = s.fault := rfl
@[simp] theorem State.ticks_batchCnt (s : State) (n : Nat) : (s.ticks n).batchCnt = s.batchCnt := rfl
@[simp] theorem State.ticks_redrawReq (s : State) (n : Nat) : (s.ticks n).redrawReq = s.redrawReq := rfl
@[simp] theorem State.ticks_waiting (s : State) (n : Nat) : (s.ticks n).waiting = s.waiting := rfl
@[simp] theorem State.ticks_stepNo (s : State) (n : Nat) : (s.ticks n).stepNo = s.stepNo := rfl
@[simp] theorem State.ticks_rndNo (s : State) (n : Nat) : (s.ticks n).rndNo = s.rndNo := rfl
@[simp] theorem State.ticks_reg (s : State) (n : Nat) (q : Reg) : (s.ticks n).reg q = s.reg q := rfl
@[simp] theorem State.ticks_byteAt (s : State) (n : Nat) (q : Nat) : (s.ticks n).byteAt q = s.byteAt q := rfl
@[simp] theorem State.ticks_pixel (s : State) (n : Nat) (p q : Nat) : (s.ticks n).pixel p q = s.pixel p q := rfl

@[simp] theorem State.beginStep_cfg (s : State) : (s.beginStep).cfg = s.cfg := rfl
@[simp] theorem State.beginStep_mem (s : State) : (s.beginStep).mem = s.mem := rfl
@[simp] theorem State.beginStep_v (s : State) : (s.beginStep).v = s.v := rfl
@[simp] theorem State.beginStep_i (s : State) : (s.beginStep).i = s.i := rfl
@[simp] theorem State.beginStep_pc (s : State) : (s.beginStep).pc = s.pc := rfl
@[simp] theorem State.beginStep_sp (s : State) : (s.beginStep).sp = s.sp := rfl
@[simp] theorem State.beginStep_stack (s : State) : (s.beginStep).stack = s.stack := rfl
@[simp] theorem State.beginStep_dt (s : State) : (s.beginStep).dt = (s.ticks s.ticksDue).dt := rfl
@[simp] theorem State.beginStep_st (s : State) : (s.beginStep).st = (s.ticks s.ticksDue).st := rfl
@[simp] theorem State.beginStep_keys (s : State) : (s.beginStep).keys = Config.keysPort s.stepNo := rfl
@[simp] theorem State.beginStep_mode (s : State) : (s.beginStep).mode = s.mode := rfl
@[simp] theorem State.beginStep_disp (s : State) : (s.beginStep).disp = s.disp := rfl
@[simp] theorem State.beginStep_run (s : State) : (s.beginStep).run = s.run := rfl
@[simp] theorem State.beginStep_fault (s : State) : (s.beginStep).fault = s.fault := rfl
@[simp] theorem State.beginStep_batchCnt (s : State) : (s.beginStep).batchCnt = s.batchCnt := rfl
@[simp] theorem State.beginStep_redrawReq (s : State) : (s.beginStep).redrawReq = false := rfl
@[simp] theorem State.beginStep_waiting (s : State) : (s.beginStep).waiting = false := rfl
@[simp] theorem State.beginStep_stepNo (s : State) : (s.beginStep).stepNo = s.stepNo + 1 := rfl
@[simp] theorem State.beginStep_rndNo (s : State) : (s.beginStep).rndNo = s.rndNo := rfl
@[simp] theorem State.beginStep_reg (s : State) (q : Reg) : (s.beginStep).reg q = s.reg q := rfl
@[simp] theorem State.beginStep_byteAt (s : State) (q : Nat) : (s.beginStep).byteAt q = s.byteAt q := rfl
@[simp] theorem State.beginStep_pixel (s : State) (p q : Nat) : (s.beginStep).pixel p q = s.pixel p q := rfl

@[simp] theorem State.setStatusThenReg_cfg (s : State) (f : Byte) (x : Reg) (b : Byte) : (s.setStatusThenReg f x b).cfg = s.cfg := rfl
@[simp] theorem State.setStatusThenReg_mem (s : State) (f : Byte) (x : Reg) (b : Byte) : (s.setStatusThenReg f x b).mem = s.mem := rfl
@[simp] theorem State.setStatusThenReg_v (s : State) (f : Byte) (x : Reg) (b : Byte) : (s.setStatusThenReg f x b).v = (s.v.set regF.val f regF.isLt).set x.val b x.isLt := rfl
@[simp] theorem State.setStatusThenReg_i (s : State) (f : Byte) (x : Reg) (b : Byte) : (s.setStatusThenReg f x b).i = s.i := rfl
@[simp] theorem State.setStatusThenReg_pc (s : State) (f : Byte) (x : Reg) (b : Byte) : (s.setStatusThenReg f x b).pc = s.pc := rfl
@[simp] theorem State.setStatusThenReg_sp (s : State) (f : Byte) (x : Reg) (b : Byte) : (s.setStatusThenReg f x b).sp = s.sp := rfl
@[simp] theorem State.setStatusThenReg_stack (s : State) (f : Byte) (x : Reg) (b : Byte) : (s.setStatusThenReg f x b).stack = s.stack := rfl
@[simp] theorem State.setStatusThenReg_dt (s : State) (f : Byte) (x : Reg) (b : Byte) : (s.setStatusThenReg f x b).dt = s.dt := rfl
@[simp] theorem State.setStatusThenReg_st (s : State) (f : Byte) (x : Reg) (b : Byte) : (s.setStatusThenReg f x b).st = s.st := rfl
@[simp] theorem State.setStatusThenReg_keys (s : State) (f : Byte) (x : Reg) (b : Byte) : (s.setStatusThenReg f x b).keys = s.keys := rfl
@[simp] theorem State.setStatusThenReg_mode (s : State) (f : Byte) (x : Reg) (b : Byte) : (s.setStatusThenReg f x b).mode = s.mode := rfl
@[simp] theorem State.setStatusThenReg_disp (s : State) (f : Byte) (x : Reg) (b : Byte) : (s.setStatusThenReg f x b).disp = s.disp := rfl
@[simp] theorem State.setStatusThenReg_run (s : State) (f : Byte) (x : Reg) (b : Byte) : (s.setStatusThenReg f x b).run = s.run := rfl
@[simp] theorem State.setStatusThenReg_fault (s : State) (f : Byte) (x : Reg) (b : Byte) : (s.setStatusThenReg f x b).fault = s.fault := rfl
@[simp] theorem State.setStatusThenReg_batchCnt (s : State) (f : Byte) (x : Reg) (b : Byte) : (s.setStatusThenReg f x b).batchCnt = s.batchCnt := rfl
@[simp] theorem State.setStatusThenReg_redrawReq (s : State) (f : Byte) (x : Reg) (b : Byte) : (s.setStatusThenReg f x b).redrawReq = s.redrawReq := rfl
@[simp] theorem State.setStatusThenReg_waiting (s : State) (f : Byte) (x : Reg) (b : Byte) : (s.setStatusThenReg f x b).waiting = s.waiting := rfl
@[simp] theorem State.setStatusThenReg_stepNo (s : State) (f : Byte) (x : Reg) (b : Byte) : (s.setStatusThenReg f x b).stepNo = s.stepNo := rfl
@[simp] theorem State.setStatusThenReg_rndNo (s : State) (f : Byte) (x : Reg) (b : Byte) : (s.setStatusThenReg f x b).rndNo = s.rndNo := rfl
@[simp] theorem State.setStatusThenReg_byteAt (s : State) (f : Byte) (x : Reg) (b : Byte) (q : Nat) : (s.setStatusThenReg f x b).byteAt q = s.byteAt q := rfl
@[simp] theorem State.setStatusThenReg_pixel (s : State) (f : Byte) (x : Reg) (b : Byte) (p q : Nat) : (s.setStatusThenReg f x b).pixel p q = s.pixel p q := rfl

/-! The reset state, field by field (R38, R310). -/

@[simp] theorem State.resetWith_cfg (c : Config) : (State.resetWith c).cfg = c := rfl
@[simp] theorem State.resetWith_mem (c : Config) : (State.resetWith c).mem = [] := rfl
theorem State.resetWith_v (c : Config) : (State.resetWith c).v = Vector.replicate 16 0 := rfl
@[simp] theorem State.resetWith_i (c : Config) : (State.resetWith c).i = 0 := rfl
@[simp] theorem State.resetWith_pc (c : Config) : (State.resetWith c).pc = 0x200 := rfl
@[simp] theorem State.resetWith_sp (c : Config) : (State.resetWith c).sp = 0 := rfl
theorem State.resetWith_stack (c : Config) : (State.resetWith c).stack = Vector.replicate 128 0 := rfl
@[simp] theorem State.resetWith_dt (c : Config) : (State.resetWith c).dt = 0 := rfl
@[simp] theorem State.resetWith_st (c : Config) : (State.resetWith c).st = 0 := rfl
@[simp] theorem State.resetWith_keys (c : Config) : (State.resetWith c).keys = 0 := rfl
@[simp] theorem State.resetWith_mode (c : Config) : (State.resetWith c).mode = .low := rfl
theorem State.resetWith_disp (c : Config) : (State.resetWith c).disp = List.replicate 2048 false := rfl
@[simp] theorem State.resetWith_run (c : Config) : (State.resetWith c).run = .running := rfl
@[simp] theorem State.resetWith_fault (c : Config) : (State.resetWith c).fault = none := rfl
@[simp] theorem State.resetWith_batchCnt (c : Config) : (State.resetWith c).batchCnt = 0 := rfl
@[simp] theorem State.resetWith_redrawReq (c : Config) : (State.resetWith c).redrawReq = false := rfl
@[simp] theorem State.resetWith_waiting (c : Config) : (State.resetWith c).waiting = false := rfl
@[simp] theorem State.resetWith_stepNo (c : Config) : (State.resetWith c).stepNo = 0 := rfl
@[simp] theorem State.resetWith_rndNo (c : Config) : (State.resetWith c).rndNo = 0 := rfl

end Sys2Proof.Machine
end

