-- ==== Sys2Proof/Laws/Display.lean ====
section
/-! SUPPORT. The display buffer: cell indexes, sizes, and what each pixel is after a scroll, a clear and a sprite. -/

namespace Sys2Proof.Machine

theorem Mode.cols_pos (m : Mode) : 0 < m.cols := by cases m <;> decide

theorem Mode.rows_pos (m : Mode) : 0 < m.rows := by cases m <;> decide

/-- The cell of an on-grid pixel is inside the buffer (R32). -/
theorem cellIndex_lt {cols rows c r : Nat} (hc : c < cols) (hr : r < rows) : r * cols + c < cols * rows := by
  calc r * cols + c < r * cols + cols := by omega
    _ = (r + 1) * cols := by ring
    _ ≤ rows * cols := Nat.mul_le_mul_right _ hr
    _ = cols * rows := Nat.mul_comm _ _

theorem cellIndex_mod {cols c : Nat} (r : Nat) (hc : c < cols) : (r * cols + c) % cols = c := by
  rw [Nat.mul_comm, Nat.mul_add_mod, Nat.mod_eq_of_lt hc]

theorem cellIndex_div {cols c : Nat} (r : Nat) (hc : c < cols) : (r * cols + c) / cols = r := by
  rw [Nat.mul_comm, Nat.mul_add_div (by omega), Nat.div_eq_of_lt hc, Nat.add_zero]

@[simp] theorem length_mapCells (f : Nat → Bool → Bool) (d : List Bool) : (mapCells f d).length = d.length := by
  simp [mapCells]

theorem getElem_mapCells (f : Nat → Bool → Bool) (d : List Bool) (k : Nat) (h : k < d.length) :
    (mapCells f d)[k]'(by simpa using h) = f k d[k] := by
  simp [mapCells]

theorem getD_mapCells (f : Nat → Bool → Bool) (d : List Bool) {k : Nat} (h : k < d.length) :
    (mapCells f d).getD k false = f k (d.getD k false) := by
  rw [List.getD_eq_getElem _ _ (by simpa using h), List.getD_eq_getElem _ _ h, getElem_mapCells]

@[simp] theorem length_shiftDown (cols n : Nat) (d : List Bool) : (shiftDown cols n d).length = d.length := by
  simp [shiftDown]

@[simp] theorem length_shiftRight (cols : Nat) (d : List Bool) : (shiftRight cols d).length = d.length := by
  simp only [shiftRight, length_mapCells, List.length_take, List.length_append, List.length_replicate]
  omega

@[simp] theorem length_shiftLeft (cols : Nat) (d : List Bool) : (shiftLeft cols d).length = d.length := by
  simp [shiftLeft]

@[simp] theorem length_spriteDrawn (s : State) (x y : Reg) (n : Nibble) : (s.spriteDrawn x y n).length = s.disp.length := by
  simp [State.spriteDrawn]

/-- The cell after a shift down is the cell `n` rows above, or false. -/
theorem getD_shiftDown (cols n : Nat) (d : List Bool) {k : Nat} (h : k < d.length) :
    (shiftDown cols n d).getD k false = if n * cols ≤ k then d.getD (k - n * cols) false else false := by
  rw [List.getD_eq_getElem _ _ (by simpa using h)]
  simp only [shiftDown, List.getElem_take]
  split
  · rename_i hk
    rw [List.getElem_append_right (by simpa using hk), List.getD_eq_getElem _ _ (by omega)]
    simp
  · rename_i hk
    rw [List.getElem_append_left (by simpa using hk)]
    simp

/-- The cell after a shift right is the cell 4 before it, or false in the first 4 columns. -/
theorem getD_shiftRight (cols : Nat) (d : List Bool) {k : Nat} (h : k < d.length) :
    (shiftRight cols d).getD k false = (decide (4 ≤ k % cols) && d.getD (k - 4) false) := by
  unfold shiftRight
  rw [getD_mapCells _ _ (by simp; omega)]
  by_cases hk : 4 ≤ k % cols
  · have h4 : 4 ≤ k := hk.trans (Nat.mod_le _ _)
    simp only [hk, decide_true, Bool.true_and]
    rw [List.getD_eq_getElem _ _ (by simp; omega), List.getD_eq_getElem _ _ (by omega)]
    simp only [List.getElem_take]
    rw [List.getElem_append_right (by simpa using h4)]
    simp
  · simp [hk]

/-- The cell after a shift left is the cell 4 after it, or false in the last 4 columns. -/
theorem getD_shiftLeft (cols : Nat) (d : List Bool) {k : Nat} (h : k < d.length) :
    (shiftLeft cols d).getD k false = (decide (k % cols + 4 < cols) && d.getD (k + 4) false) := by
  unfold shiftLeft
  rw [getD_mapCells _ _ (by simp; omega)]
  congr 1
  rw [List.getD_eq_getElem _ _ (by simp; omega)]
  simp only [List.getElem_drop]
  by_cases hk : 4 + k < d.length
  · rw [List.getElem_append_left hk, List.getD_eq_getElem _ _ (by omega)]
    simp only [Nat.add_comm]
  · rw [List.getElem_append_right (by omega), List.getD_eq_default _ _ (by omega)]
    exact List.getElem_replicate ..

/-- A pixel after a sprite: toggled where a set sprite bit lands (R220). -/
theorem getD_spriteDrawn (s : State) (x y : Reg) (n : Nibble) {k : Nat} (h : k < s.disp.length) :
    (s.spriteDrawn x y n).getD k false
      = (s.disp.getD k false != s.spriteHits x y n (k % s.mode.cols) (k / s.mode.cols)) :=
  getD_mapCells _ _ h

/-- The collision flag: some cell is set and hit (R224). -/
theorem spriteCollides_iff (s : State) (x y : Reg) (n : Nibble) :
    s.spriteCollides x y n = true ↔
      ∃ k, k < s.disp.length ∧ s.disp.getD k false = true ∧ s.spriteHits x y n (k % s.mode.cols) (k / s.mode.cols) = true := by
  simp only [State.spriteCollides, List.any_eq_true, Bool.and_eq_true]
  constructor
  · rintro ⟨p, hp, hb, hh⟩
    obtain ⟨hk, he⟩ := List.mem_zipIdx' hp
    refine ⟨p.2, hk, ?_, hh⟩
    rw [List.getD_eq_getElem _ _ hk, ← he, hb]
  · rintro ⟨k, hk, hb, hh⟩
    rw [List.getD_eq_getElem _ _ hk] at hb
    refine ⟨(s.disp[k], k), ?_, hb, hh⟩
    rw [List.mk_mem_zipIdx_iff_getElem?]
    simp [hk]

/-- The bit of a sprite row that R220 names `bits[W-1-col]` is the bit the machine reads (R222). -/
theorem testBit_spriteRowBits (s : State) (n : Nibble) (row : Nat) {col : Nat} (hc : col < spriteWidth n) :
    (spriteRowBits s n row).testBit (spriteWidth n - 1 - col) = s.spriteBit n col row := by
  unfold spriteRowBits State.spriteBit spriteWidth spriteRowBytes at *
  by_cases hn : n = 0
  · simp only [hn, if_true] at *
    rw [Nat.mul_comm _ 256, show (256 : Nat) = 2 ^ 8 from rfl]
    by_cases h8 : col < 8
    · rw [show col / 8 = 0 by omega, show 16 - 1 - col = 7 - col % 8 + 8 by omega, ← Nat.testBit_div_two_pow,
        Nat.mul_add_div (by decide), Nat.div_eq_of_lt (BitVec.isLt (w := 8) _)]
      rfl
    · rw [show col / 8 = 1 by omega, show 16 - 1 - col = 7 - col % 8 by omega,
        Nat.testBit_two_pow_mul_add _ (BitVec.isLt (w := 8) _), if_pos (by omega)]
      rfl
  · simp only [hn, if_false] at *
    rw [show col / 8 = 0 by omega, show 8 - 1 - col = 7 - col % 8 by omega, Nat.mul_one, Nat.add_zero]
    rfl

/-- The sprite of R220 lands on a cell exactly when the machine's test of that cell says so. -/
theorem spriteLandsOn_iff (s : State) (x y : Reg) (n : Nibble) (c r : Nat) :
    SpriteLandsOn s x y n c r ↔ s.spriteHits x y n c r = true := by
  change (∃ row col, row < spriteHeight n ∧ col < spriteWidth n
    ∧ (spriteRowBits s n row).testBit (spriteWidth n - 1 - col) = true
    ∧ c = s.anchorCol x + col ∧ r = s.anchorRow y + row) ↔ _
  simp only [State.spriteHits, Bool.and_eq_true, decide_eq_true_eq]
  constructor
  · rintro ⟨row, col, h1, h2, h3, rfl, rfl⟩
    rw [testBit_spriteRowBits _ _ _ h2] at h3
    simp [h1, h2, h3]
  · rintro ⟨⟨⟨⟨h1, h2⟩, h3⟩, h4⟩, h5⟩
    refine ⟨r - s.anchorRow y, c - s.anchorCol x, by omega, by omega, ?_, by omega, by omega⟩
    rw [testBit_spriteRowBits _ _ _ (by omega)]
    exact h5

/-- The collision flag over the grid (R224). -/
theorem spriteCollides_iff_grid (s : State) (x y : Reg) (n : Nibble) (hd : s.disp.length = s.mode.cols * s.mode.rows) :
    s.spriteCollides x y n = true ↔ ∃ c r, s.onGrid c r ∧ s.spriteHits x y n c r = true ∧ s.pixel c r = true := by
  rw [spriteCollides_iff]
  constructor
  · rintro ⟨k, hk, h1, h2⟩
    refine ⟨k % s.mode.cols, k / s.mode.cols, ⟨Nat.mod_lt _ (Mode.cols_pos _), ?_⟩, h2, ?_⟩
    · rw [hd] at hk
      exact Nat.div_lt_of_lt_mul hk
    · rw [State.pixel, Nat.mul_comm, Nat.div_add_mod]
      exact h1
  · rintro ⟨c, r, hg, h1, h2⟩
    refine ⟨r * s.mode.cols + c, hd ▸ cellIndex_lt hg.1 hg.2, h2, ?_⟩
    rw [cellIndex_mod r hg.1, cellIndex_div r hg.1]
    exact h1

/-- The bytes a sprite reads (R221): 32, or N. -/
theorem spriteHeight_mul_rowBytes (n : Nibble) : spriteHeight n * spriteRowBytes n = if n = 0 then 32 else n.toNat := by
  unfold spriteHeight spriteRowBytes
  split <;> simp

end Sys2Proof.Machine
end

