-- ==== Sys2Proof/Laws/Encoding.lean ====
section
/-! SUPPORT. The fields of the encoded formats (30_encoding R91, R93), and their bits under the masks of the opcode map. -/

namespace Sys2Proof

@[simp] theorem toFin_regNibble (r : Reg) : (regNibble r).toFin = r := rfl

@[simp] theorem regNibble_toFin (b : Nibble) : regNibble b.toFin = b := rfl

@[simp] theorem fieldN3_wordA (op : Nibble) (a : Addr) : fieldN3 (wordA op a) = op := by
  ext i hi; simp only [fieldN3, wordA, BitVec.getElem_extractLsb', BitVec.getLsbD_append]; simp [hi]

@[simp] theorem fieldNNN_wordA (op : Nibble) (a : Addr) : fieldNNN (wordA op a) = a := by
  ext i hi; simp only [fieldNNN, wordA, BitVec.getElem_extractLsb', BitVec.getLsbD_append]; simp [hi]

@[simp] theorem fieldN3_wordXK (op : Nibble) (x : Reg) (kk : Byte) : fieldN3 (wordXK op x kk) = op := by
  ext i hi
  simp only [fieldN3, wordXK, BitVec.getElem_extractLsb', BitVec.getLsbD_append]
  simp [hi, show ¬ (12 + i < 8) by omega, show ¬ (12 + i - 8 < 4) by omega, show 12 + i - 8 - 4 = i by omega]

@[simp] theorem fieldN2_wordXK (op : Nibble) (x : Reg) (kk : Byte) : fieldN2 (wordXK op x kk) = regNibble x := by
  ext i hi
  simp only [fieldN2, wordXK, BitVec.getElem_extractLsb', BitVec.getLsbD_append]
  simp [hi]

@[simp] theorem fieldX_wordXK (op : Nibble) (x : Reg) (kk : Byte) : fieldX (wordXK op x kk) = x := by
  simp [fieldX]

@[simp] theorem fieldKK_wordXK (op : Nibble) (x : Reg) (kk : Byte) : fieldKK (wordXK op x kk) = kk := by
  ext i hi; simp only [fieldKK, wordXK, BitVec.getElem_extractLsb', BitVec.getLsbD_append]; simp [hi]

theorem wordXYN_eq_wordXK (op : Nibble) (x y : Reg) (n : Nibble) : wordXYN op x y n = wordXK op x (regNibble y ++ n : BitVec 8) := rfl

@[simp] theorem fieldN3_wordXYN (op : Nibble) (x y : Reg) (n : Nibble) : fieldN3 (wordXYN op x y n) = op := by
  simp [wordXYN_eq_wordXK]

@[simp] theorem fieldX_wordXYN (op : Nibble) (x y : Reg) (n : Nibble) : fieldX (wordXYN op x y n) = x := by
  simp [wordXYN_eq_wordXK]

@[simp] theorem fieldN1_wordXYN (op : Nibble) (x y : Reg) (n : Nibble) : fieldN1 (wordXYN op x y n) = regNibble y := by
  ext i hi
  simp only [fieldN1, wordXYN, BitVec.getElem_extractLsb', BitVec.getLsbD_append]
  simp [hi, show 4 + i < 8 by omega]

@[simp] theorem fieldY_wordXYN (op : Nibble) (x y : Reg) (n : Nibble) : fieldY (wordXYN op x y n) = y := by
  simp [fieldY]

@[simp] theorem fieldN0_wordXYN (op : Nibble) (x y : Reg) (n : Nibble) : fieldN0 (wordXYN op x y n) = n := by
  ext i hi
  simp only [fieldN0, wordXYN, BitVec.getElem_extractLsb', BitVec.getLsbD_append]
  simp [hi]; omega

theorem wordA_and_F000 (op : Nibble) (a : Addr) : wordA op a &&& 0xF000 = wordA op 0 := by
  apply BitVec.eq_of_getLsbD_eq
  intro i hi
  simp only [wordA, BitVec.getLsbD_and, BitVec.getLsbD_append]
  interval_cases i <;> simp

theorem wordXK_and_F000 (op : Nibble) (x : Reg) (kk : Byte) : wordXK op x kk &&& 0xF000 = wordXK op 0 0 := by
  apply BitVec.eq_of_getLsbD_eq
  intro i hi
  simp only [wordXK, BitVec.getLsbD_and, BitVec.getLsbD_append]
  interval_cases i <;> simp [regNibble]

theorem wordXK_and_F0FF (op : Nibble) (x : Reg) (kk : Byte) : wordXK op x kk &&& 0xF0FF = wordXK op 0 kk := by
  apply BitVec.eq_of_getLsbD_eq
  intro i hi
  simp only [wordXK, BitVec.getLsbD_and, BitVec.getLsbD_append]
  interval_cases i <;> simp [regNibble]

theorem wordXYN_and_F00F (op : Nibble) (x y : Reg) (n : Nibble) : wordXYN op x y n &&& 0xF00F = wordXYN op 0 0 n := by
  apply BitVec.eq_of_getLsbD_eq
  intro i hi
  simp only [wordXYN, BitVec.getLsbD_and, BitVec.getLsbD_append]
  interval_cases i <;> simp [regNibble]

theorem wordXYN_and_F000 (op : Nibble) (x y : Reg) (n : Nibble) : wordXYN op x y n &&& 0xF000 = wordXYN op 0 0 0 := by
  rw [wordXYN_eq_wordXK, wordXK_and_F000]; rfl

/-- The number of a word of format A (R93). -/
theorem toNat_wordA (op : Nibble) (a : Addr) : (wordA op a).toNat = 0x1000 * op.toNat + a.toNat := by
  simp only [wordA, BitVec.toNat_append]
  rw [← Nat.shiftLeft_add_eq_or_of_lt a.isLt, Nat.shiftLeft_eq]
  ring

/-- The number of a word of format XK or XS (R93). -/
theorem toNat_wordXK (op : Nibble) (x : Reg) (kk : Byte) :
    (wordXK op x kk).toNat = 0x1000 * op.toNat + 0x100 * x.val + kk.toNat := by
  simp only [wordXK, BitVec.toNat_append]
  rw [← Nat.shiftLeft_add_eq_or_of_lt kk.isLt, Nat.shiftLeft_eq, ← Nat.shiftLeft_add_eq_or_of_lt (regNibble x).isLt,
    Nat.shiftLeft_eq]
  simp only [regNibble, BitVec.toNat_ofFin]
  ring

/-- The number of a word of format XY or XYN (R93). -/
theorem toNat_wordXYN (op : Nibble) (x y : Reg) (n : Nibble) :
    (wordXYN op x y n).toNat = 0x1000 * op.toNat + 0x100 * x.val + 0x10 * y.val + n.toNat := by
  rw [wordXYN_eq_wordXK, toNat_wordXK, BitVec.toNat_append, ← Nat.shiftLeft_add_eq_or_of_lt n.isLt, Nat.shiftLeft_eq]
  simp only [regNibble, BitVec.toNat_ofFin]
  ring

/-- A word is made of its fields: format A. -/
theorem wordA_of_fields (w : Word) : wordA (fieldN3 w) (fieldNNN w) = w := by
  apply BitVec.eq_of_getLsbD_eq
  intro i hi
  simp only [wordA, fieldN3, fieldNNN, BitVec.getLsbD_append, BitVec.getLsbD_extractLsb']
  interval_cases i <;> simp

/-- A word is made of its fields: formats XK and XS. -/
theorem wordXK_of_fields (w : Word) : wordXK (fieldN3 w) (fieldX w) (fieldKK w) = w := by
  apply BitVec.eq_of_getLsbD_eq
  intro i hi
  simp only [wordXK, fieldX, regNibble_toFin, fieldN3, fieldN2, fieldKK, BitVec.getLsbD_append, BitVec.getLsbD_extractLsb']
  interval_cases i <;> simp

/-- A word is made of its fields: formats XY and XYN. -/
theorem wordXYN_of_fields (w : Word) : wordXYN (fieldN3 w) (fieldX w) (fieldY w) (fieldN0 w) = w := by
  apply BitVec.eq_of_getLsbD_eq
  intro i hi
  simp only [wordXYN, fieldX, fieldY, regNibble_toFin, fieldN3, fieldN2, fieldN1, fieldN0, BitVec.getLsbD_append,
    BitVec.getLsbD_extractLsb']
  interval_cases i <;> simp

end Sys2Proof
end

