-- ==== Sys2Proof/Laws/Memory.lean ====
section
/-! SUPPORT. Memory: a read after a write, and the canonical form, for one byte and for a run of bytes. -/

namespace Sys2Proof.Machine

theorem Memory.lookup_eq_none_of_lt {m : Memory} {a : Nat} (h : ∀ p ∈ m, a < p.1) : Memory.lookup m a = none := by
  induction m with
  | nil => rfl
  | cons p m ih =>
    have hp := h p (by simp)
    have : p.1 ≠ a := by omega
    simp [Memory.lookup, this, ih fun q hq => h q (by simp [hq])]

/-- A write leaves every other address alone. -/
theorem Memory.lookup_write_ne (bg : Byte) (m : Memory) {a q : Nat} (b : Byte) (h : q ≠ a) :
    Memory.lookup (Memory.write bg m a b) q = Memory.lookup m q := by
  induction m with
  | nil => unfold Memory.write; split <;> simp [Memory.lookup, Ne.symm h]
  | cons p m ih =>
    obtain ⟨k, old⟩ := p
    unfold Memory.write
    split
    · split <;> simp [Memory.lookup, Ne.symm h]
    · split
      · subst a
        split <;> simp [Memory.lookup, Ne.symm h]
      · simp only [Memory.lookup, ih]

/-- A read after a write to the same address, in a memory whose addresses rise. -/
theorem Memory.lookup_write_same (bg : Byte) {m : Memory} (a : Nat) (b : Byte) (hm : m.Pairwise fun p q => p.1 < q.1) :
    (Memory.lookup (Memory.write bg m a b) a).getD bg = b := by
  induction m with
  | nil => unfold Memory.write; split <;> simp_all [Memory.lookup]
  | cons p m ih =>
    obtain ⟨k, old⟩ := p
    rw [List.pairwise_cons] at hm
    unfold Memory.write
    split
    · rename_i hlt
      split
      · have : Memory.lookup ((k, old) :: m) a = none := Memory.lookup_eq_none_of_lt (by
          intro q hq
          rcases List.mem_cons.1 hq with rfl | hq
          · exact hlt
          · exact lt_trans hlt (hm.1 q hq))
        simp_all
      · simp [Memory.lookup]
    · split
      · subst a
        split
        · rw [Memory.lookup_eq_none_of_lt hm.1]; simp_all
        · simp [Memory.lookup]
      · rename_i hne
        simp only [Memory.lookup, Ne.symm hne, if_false]
        exact ih hm.2

theorem Memory.mem_write {bg : Byte} {m : Memory} {a : Nat} {b : Byte} {p : Host.Cell} (h : p ∈ Memory.write bg m a b) :
    p ∈ m ∨ (p = (a, b) ∧ b ≠ bg) := by
  induction m with
  | nil =>
    unfold Memory.write at h
    split at h
    · simp at h
    · exact .inr ⟨by simpa using h, by assumption⟩
  | cons c m ih =>
    obtain ⟨k, old⟩ := c
    unfold Memory.write at h
    split at h
    · split at h
      · exact .inl h
      · rcases List.mem_cons.1 h with rfl | h
        · exact .inr ⟨rfl, by assumption⟩
        · exact .inl h
    · split at h
      · split at h
        · exact .inl (by simp [h])
        · rcases List.mem_cons.1 h with rfl | h
          · exact .inr ⟨rfl, by assumption⟩
          · exact .inl (by simp [h])
      · rcases List.mem_cons.1 h with rfl | h
        · exact .inl (by simp)
        · rcases ih h with h | h
          · exact .inl (by simp [h])
          · exact .inr h

/-- A write keeps the addresses rising. -/
theorem Memory.pairwise_write (bg : Byte) {m : Memory} (a : Nat) (b : Byte) (hm : m.Pairwise fun p q => p.1 < q.1) :
    (Memory.write bg m a b).Pairwise fun p q => p.1 < q.1 := by
  induction m with
  | nil => unfold Memory.write; split <;> simp
  | cons c m ih =>
    obtain ⟨k, old⟩ := c
    have hc := List.pairwise_cons.1 hm
    unfold Memory.write
    split
    · rename_i hlt
      split
      · exact hm
      · refine List.pairwise_cons.2 ⟨fun q hq => ?_, hm⟩
        rcases List.mem_cons.1 hq with rfl | hq
        · exact hlt
        · exact lt_trans hlt (hc.1 q hq)
    · rename_i hge
      split
      · subst a
        split
        · exact hc.2
        · exact List.pairwise_cons.2 ⟨hc.1, hc.2⟩
      · rename_i hne
        refine List.pairwise_cons.2 ⟨fun q hq => ?_, ih hc.2⟩
        rcases Memory.mem_write hq with hq | ⟨rfl, -⟩
        · exact hc.1 q hq
        · simp only at hge hne ⊢; omega

/-- A write to an address below 4096 keeps the canonical form. -/
theorem Memory.wf_write {c : Config} {m : Memory} (a : Nat) (b : Byte) (ha : a ≤ 4095) (h : Memory.wf c m) :
    Memory.wf c (Memory.write (Memory.background c a) m a b) := by
  refine ⟨Memory.pairwise_write _ a b h.1, fun p hp => ?_⟩
  rcases Memory.mem_write hp with hp | ⟨rfl, hb⟩
  · exact h.2 p hp
  · exact ⟨by simp only; omega, hb⟩

theorem Memory.wf_nil (c : Config) : Memory.wf c [] := by simp [Memory.wf]

/-- A byte stored is read back. -/
theorem State.byteAt_putByte_same {s : State} (h : Memory.wf s.cfg s.mem) (a : Nat) (b : Byte) : (s.putByte a b).byteAt a = b :=
  Memory.lookup_write_same _ a b h.1

/-- A store leaves every other byte alone. -/
theorem State.byteAt_putByte_ne (s : State) {a q : Nat} (b : Byte) (h : q ≠ a) : (s.putByte a b).byteAt q = s.byteAt q := by
  simp only [State.byteAt, State.putByte, Memory.lookup_write_ne _ _ b h]

theorem State.wf_putByte {s : State} (h : Memory.wf s.cfg s.mem) {a : Nat} (b : Byte) (ha : a ≤ 4095) :
    Memory.wf (s.putByte a b).cfg (s.putByte a b).mem :=
  Memory.wf_write a b ha h

/-- A run of stores changes memory alone. -/
theorem State.putBytes_eq (s : State) (a : Nat) (bs : List Byte) : s.putBytes a bs = { s with mem := (s.putBytes a bs).mem } := by
  induction bs generalizing s a with
  | nil => rfl
  | cons b bs ih => unfold State.putBytes; rw [ih]; rfl

@[simp] theorem State.putBytes_cfg (s : State) (a : Nat) (bs : List Byte) : (s.putBytes a bs).cfg = s.cfg := by rw [State.putBytes_eq]
@[simp] theorem State.putBytes_v (s : State) (a : Nat) (bs : List Byte) : (s.putBytes a bs).v = s.v := by rw [State.putBytes_eq]
@[simp] theorem State.putBytes_i (s : State) (a : Nat) (bs : List Byte) : (s.putBytes a bs).i = s.i := by rw [State.putBytes_eq]
@[simp] theorem State.putBytes_pc (s : State) (a : Nat) (bs : List Byte) : (s.putBytes a bs).pc = s.pc := by rw [State.putBytes_eq]
@[simp] theorem State.putBytes_sp (s : State) (a : Nat) (bs : List Byte) : (s.putBytes a bs).sp = s.sp := by rw [State.putBytes_eq]
@[simp] theorem State.putBytes_stack (s : State) (a : Nat) (bs : List Byte) : (s.putBytes a bs).stack = s.stack := by rw [State.putBytes_eq]
@[simp] theorem State.putBytes_dt (s : State) (a : Nat) (bs : List Byte) : (s.putBytes a bs).dt = s.dt := by rw [State.putBytes_eq]
@[simp] theorem State.putBytes_st (s : State) (a : Nat) (bs : List Byte) : (s.putBytes a bs).st = s.st := by rw [State.putBytes_eq]
@[simp] theorem State.putBytes_keys (s : State) (a : Nat) (bs : List Byte) : (s.putBytes a bs).keys = s.keys := by rw [State.putBytes_eq]
@[simp] theorem State.putBytes_mode (s : State) (a : Nat) (bs : List Byte) : (s.putBytes a bs).mode = s.mode := by rw [State.putBytes_eq]
@[simp] theorem State.putBytes_disp (s : State) (a : Nat) (bs : List Byte) : (s.putBytes a bs).disp = s.disp := by rw [State.putBytes_eq]
@[simp] theorem State.putBytes_run (s : State) (a : Nat) (bs : List Byte) : (s.putBytes a bs).run = s.run := by rw [State.putBytes_eq]
@[simp] theorem State.putBytes_fault (s : State) (a : Nat) (bs : List Byte) : (s.putBytes a bs).fault = s.fault := by rw [State.putBytes_eq]
@[simp] theorem State.putBytes_batchCnt (s : State) (a : Nat) (bs : List Byte) : (s.putBytes a bs).batchCnt = s.batchCnt := by rw [State.putBytes_eq]
@[simp] theorem State.putBytes_redrawReq (s : State) (a : Nat) (bs : List Byte) : (s.putBytes a bs).redrawReq = s.redrawReq := by rw [State.putBytes_eq]
@[simp] theorem State.putBytes_waiting (s : State) (a : Nat) (bs : List Byte) : (s.putBytes a bs).waiting = s.waiting := by rw [State.putBytes_eq]
@[simp] theorem State.putBytes_stepNo (s : State) (a : Nat) (bs : List Byte) : (s.putBytes a bs).stepNo = s.stepNo := by rw [State.putBytes_eq]
@[simp] theorem State.putBytes_rndNo (s : State) (a : Nat) (bs : List Byte) : (s.putBytes a bs).rndNo = s.rndNo := by rw [State.putBytes_eq]
@[simp] theorem State.putBytes_reg (s : State) (a : Nat) (bs : List Byte) (r : Reg) : (s.putBytes a bs).reg r = s.reg r := by rw [State.putBytes_eq]; rfl

/-- A run of stores keeps the canonical form. -/
theorem State.wf_putBytes {s : State} (h : Memory.wf s.cfg s.mem) {a : Nat} {bs : List Byte} (ha : a + bs.length ≤ 4096) :
    Memory.wf s.cfg (s.putBytes a bs).mem := by
  induction bs generalizing s a with
  | nil => exact h
  | cons b bs ih =>
    simp only [List.length_cons] at ha
    exact ih (s := s.putByte a b) (State.wf_putByte h b (by omega)) (by omega)

/-- A run of stores leaves every byte outside it alone. -/
theorem State.byteAt_putBytes_outside (s : State) {a q : Nat} {bs : List Byte} (h : q < a ∨ a + bs.length ≤ q) :
    (s.putBytes a bs).byteAt q = s.byteAt q := by
  induction bs generalizing s a with
  | nil => rfl
  | cons b bs ih =>
    simp only [List.length_cons] at h
    unfold State.putBytes
    rw [ih _ (by omega), State.byteAt_putByte_ne _ _ (by omega)]

/-- The k-th byte of a run of stores is read back. -/
theorem State.byteAt_putBytes_inside {s : State} (h : Memory.wf s.cfg s.mem) {a : Nat} {bs : List Byte} (hb : a + bs.length ≤ 4096)
    {k : Nat} (hk : k < bs.length) : (s.putBytes a bs).byteAt (a + k) = bs[k] := by
  induction bs generalizing s a k with
  | nil => simp at hk
  | cons b bs ih =>
    simp only [List.length_cons] at hk hb
    unfold State.putBytes
    cases k with
    | zero =>
      rw [State.byteAt_putBytes_outside _ (by omega)]
      exact State.byteAt_putByte_same h a b
    | succ k =>
      have := ih (s := s.putByte a b) (a := a + 1) (k := k) (State.wf_putByte h b (by omega)) (by omega) (by omega)
      rw [show a + (k + 1) = a + 1 + k by omega, this]
      rfl

end Sys2Proof.Machine
end

