-- ==== Sys2Proof/Laws/Registers.lean ====
section
/-! SUPPORT. The register file, the call stack, the range check, the timers: one law per shared operation. -/

namespace Sys2Proof.Machine

@[simp] theorem State.reg_setReg_same (s : State) (r : Reg) (b : Byte) : (s.setReg r b).reg r = b := by
  simp [State.reg, State.setReg]

theorem State.reg_setReg_ne (s : State) {r q : Reg} (b : Byte) (h : q ≠ r) : (s.setReg r b).reg q = s.reg q := by
  have : r.val ≠ q.val := fun e => h (Fin.ext e.symm)
  simp [State.reg, State.setReg, Vector.getElem_set_ne _ _ this]

theorem State.reg_setReg (s : State) (r q : Reg) (b : Byte) : (s.setReg r b).reg q = if q = r then b else s.reg q := by
  split
  · subst q; simp
  · exact State.reg_setReg_ne s b (by assumption)

theorem State.setRegIf_eq (s : State) (c : Bool) (r : Reg) (b : Byte) : s.setRegIf c r b = if c then s.setReg r b else s := by
  cases c <;> rfl

theorem State.reg_setRegIf (s : State) (c : Bool) (r q : Reg) (b : Byte) :
    (s.setRegIf c r b).reg q = if c ∧ q = r then b else s.reg q := by
  cases c <;> simp [State.setRegIf_eq, State.reg_setReg]

/-- Status first, result last (R23): the result register holds the result, VF the status unless it is the result register. -/
theorem State.reg_setStatusThenReg (s : State) (f : Byte) (x q : Reg) (b : Byte) :
    (s.setStatusThenReg f x b).reg q = if q = x then b else if q = regF then f else s.reg q := by
  simp [State.setStatusThenReg, State.reg_setReg]

theorem mem_allRegs (r : Reg) : r ∈ allRegs := by revert r; decide

theorem mem_regsUpTo {x r : Reg} : r ∈ regsUpTo x ↔ r.val ≤ x.val := by
  simp [regsUpTo, mem_allRegs]

theorem length_regsUpTo (x : Reg) : (regsUpTo x).length = x.val + 1 := by revert x; decide

/-- The k-th register of 0..X is register k. -/
theorem getElem_regsUpTo (x : Reg) (k : Nat) (h : k < (regsUpTo x).length) : ((regsUpTo x)[k]).val = k := by
  rw [length_regsUpTo] at h
  have key : ∀ x : Reg, ∀ k : Fin 16, k.val < x.val + 1 → ((regsUpTo x)[k.val]?).map Fin.val = some k.val := by decide
  have hk := key x ⟨k, by omega⟩ h
  rw [List.getElem?_eq_getElem (by rw [length_regsUpTo]; exact h)] at hk
  simpa using hk

/-- Loading a list of registers, each once or more from a fixed source. -/
theorem State.reg_foldl_setReg (s : State) (f : Reg → Byte) (l : List Reg) (q : Reg) :
    (l.foldl (fun t r => t.setReg r (f r)) s).reg q = if q ∈ l then f q else s.reg q := by
  induction l generalizing s with
  | nil => simp
  | cons r l ih =>
    rw [List.foldl_cons, ih]
    by_cases hl : q ∈ l
    · simp [hl]
    · by_cases hq : q = r
      · subst q; simp [hl]
      · simp [hl, hq, State.reg_setReg_ne]

/-- Loading registers changes the register file alone. -/
theorem State.foldl_setReg_eq (s : State) (f : Reg → Byte) (l : List Reg) :
    l.foldl (fun t r => t.setReg r (f r)) s = { s with v := (l.foldl (fun t r => t.setReg r (f r)) s).v } := by
  induction l generalizing s with
  | nil => rfl
  | cons r l ih => rw [List.foldl_cons, ih]; rfl

/-- An extent in range lets the instruction's effect through. -/
theorem State.ifInRange_le {s : State} {ins : Instr} {last : Nat} (t : State) (h : last ≤ 4095) : s.ifInRange ins last t = t := by
  simp [State.ifInRange, h]

/-- An extent past the top of memory is the fault, whatever the effect would have been. -/
theorem State.ifInRange_gt {s : State} {ins : Instr} {last : Nat} (t : State) (h : 4095 < last) :
    s.ifInRange ins last t = s.raise .addressOutOfRange last (some (encode ins)) := by
  simp [State.ifInRange, Nat.not_le.2 h]

/-- A fault is taken as R282 says. -/
theorem State.raise_faultTaken (s : State) (k : FaultKind) (n : Nat) (w : Option Word) : FaultTaken s k n w (s.raise k n w) :=
  ⟨rfl, rfl, rfl⟩

/-- The fetch gives a word exactly when PC + 1 is an address. -/
theorem State.fetch_isSome_iff (s : State) : s.fetch.isSome ↔ s.pc.toNat + 1 ≤ 4095 := by
  unfold State.fetch; split <;> simp_all

theorem State.fetch_eq_none_iff (s : State) : s.fetch = none ↔ 4095 ≤ s.pc.toNat := by
  unfold State.fetch; split <;> simp <;> omega

theorem tickDown_toNat (t : BitVec 16) : (tickDown t).toNat = t.toNat - 1 := by
  unfold tickDown
  split
  · subst t; rfl
  · rename_i h
    have : t.toNat ≠ 0 := fun e => h (BitVec.eq_of_toNat_eq (by simpa using e))
    rw [BitVec.toNat_sub_of_le (by rw [BitVec.le_def]; simp; omega)]
    rfl

theorem State.ticks_dt_toNat (s : State) (n : Nat) : (s.ticks n).dt.toNat = s.dt.toNat - n := by
  rw [State.ticks_dt, BitVec.toNat_ofNat, Nat.mod_eq_of_lt]
  exact lt_of_le_of_lt (Nat.sub_le _ _) s.dt.isLt

theorem State.ticks_st_toNat (s : State) (n : Nat) :
    (s.ticks n).st.toNat = if s.cfg.hasSoundTimer then s.st.toNat - n else s.st.toNat := by
  rw [State.ticks_st]
  split
  · rw [BitVec.toNat_ofNat, Nat.mod_eq_of_lt]
    exact lt_of_le_of_lt (Nat.sub_le _ _) s.st.isLt
  · rfl

/-- PC after a skip, from the state before the instruction (R167). -/
theorem State.advance_skipIf_pc (s : State) (c : Bool) : (s.advance.skipIf c).pc = if c then s.pc + 4 else s.pc + 2 := by
  cases c <;> simp [State.skipIf, State.advance, BitVec.add_assoc]

/-- No key is latched (R242). -/
theorem highestKey_eq_none {keys : BitVec 16} (h : ∀ k, k < 16 → keys.getLsbD k = false) : highestKey keys = none := by
  simp only [highestKey, List.find?_eq_none]
  intro k hk
  have : k < 16 := by revert k; decide
  simp [keyDown, h k this]

/-- The highest latched key (R242). -/
theorem highestKey_eq_some {keys : BitVec 16} {k : Nat} (hk : k < 16) (h : keys.getLsbD k = true)
    (above : ∀ j, k < j → j < 16 → keys.getLsbD j = false) : highestKey keys = some k := by
  unfold highestKey
  interval_cases k <;> simp [-BitVec.getLsbD_eq_getElem, List.find?, keyDown, h, above]

/-- One tick more (R127). -/
theorem State.tick_ticks (s : State) (n : Nat) : (s.ticks n).tick = s.ticks (n + 1) := by
  have key : ∀ a : BitVec 16, tickDown (BitVec.ofNat 16 (a.toNat - n)) = BitVec.ofNat 16 (a.toNat - (n + 1)) := by
    intro a
    apply BitVec.eq_of_toNat_eq
    rw [tickDown_toNat]
    simp only [BitVec.toNat_ofNat]
    omega
  unfold State.ticks State.tick
  simp only [key]
  split <;> simp_all

end Sys2Proof.Machine
end

