-- ==== Sys2Proof/Laws/Exec.lean ====
section
/-! SUPPORT. What executing an instruction can do, said once: it answers a next state, which is a fault of that instruction or a state
that is still running and has the same parameters, inputs and batch count. -/

namespace Sys2Proof.Machine

/-- The instruction completed without a fault: what no completed instruction changes. -/
structure Completed (s t : State) : Prop where
  run : t.run = s.run
  fault : t.fault = s.fault
  cfg : t.cfg = s.cfg
  keys : t.keys = s.keys
  stepNo : t.stepNo = s.stepNo
  batchCnt : t.batchCnt = s.batchCnt

/-- A next state of instruction `ins` from `s`: it raised a fault, or it completed. -/
def RaisedOrCompleted (ins : Instr) (s t : State) : Prop :=
  (∃ kind info, t = s.raise kind info (some (encode ins))) ∨ Completed s t

theorem RaisedOrCompleted.of_completed {ins : Instr} {s t : State} (h : Completed s t) : RaisedOrCompleted ins s t := .inr h

theorem RaisedOrCompleted.ifInRange {ins : Instr} {s t : State} (last : Nat) (h : Completed s t) :
    RaisedOrCompleted ins s (s.ifInRange ins last t) := by
  unfold State.ifInRange
  split
  · exact .inr h
  · exact .inl ⟨_, _, rfl⟩

/-- Every instruction answers a next state, and that state is a fault of the instruction or a completion. -/
theorem exec_cases (ins : Instr) (s : State) : ∃ t, exec ins s = .next t ∧ RaisedOrCompleted ins s t := by
  cases ins with
  | ret =>
    refine ⟨_, rfl, ?_⟩
    split
    · exact .inl ⟨_, _, rfl⟩
    · exact .inr ⟨rfl, rfl, rfl, rfl, rfl, rfl⟩
  | call nnn =>
    refine ⟨_, rfl, ?_⟩
    split
    · exact .inl ⟨_, _, rfl⟩
    · exact .inr ⟨rfl, rfl, rfl, rfl, rfl, rfl⟩
  | skp x =>
    refine ⟨_, rfl, ?_⟩
    unfold State.keySkip
    split
    · exact .inl ⟨_, _, rfl⟩
    · exact .inr ⟨rfl, rfl, rfl, rfl, rfl, rfl⟩
  | sknp x =>
    refine ⟨_, rfl, ?_⟩
    unfold State.keySkip
    split
    · exact .inl ⟨_, _, rfl⟩
    · exact .inr ⟨rfl, rfl, rfl, rfl, rfl, rfl⟩
  | ldVxK x =>
    refine ⟨_, rfl, .inr ?_⟩
    split <;> exact ⟨rfl, rfl, rfl, rfl, rfl, rfl⟩
  | drw x y n => exact ⟨_, rfl, .ifInRange _ ⟨rfl, rfl, rfl, rfl, rfl, rfl⟩⟩
  | ldB x => exact ⟨_, rfl, .ifInRange _ ⟨by simp, by simp, by simp, by simp, by simp, by simp⟩⟩
  | stRegs x => exact ⟨_, rfl, .ifInRange _ ⟨by simp, by simp, by simp, by simp, by simp, by simp⟩⟩
  | ldRegs x =>
    refine ⟨_, rfl, .ifInRange _ ?_⟩
    rw [State.foldl_setReg_eq]
    exact ⟨rfl, rfl, rfl, rfl, rfl, rfl⟩
  | _ => exact ⟨_, rfl, .inr ⟨rfl, rfl, rfl, rfl, rfl, rfl⟩⟩

/-- The same, for a next state in hand. -/
theorem exec_next {ins : Instr} {s t : State} (h : exec ins s = .next t) : RaisedOrCompleted ins s t := by
  obtain ⟨u, hu, hc⟩ := exec_cases ins s
  rw [hu] at h
  cases h
  exact hc

end Sys2Proof.Machine
end

