-- ==== Sys2Proof/Laws/PerInstr.lean ====
section
/-! SUPPORT. Per instruction: its encoding matches its own row of the opcode map (30_encoding R96: `word & mask = match`). -/

namespace Sys2Proof.Laws.EncodeMatchesRow

/-- The word of an instruction is of the instruction's row. -/
def Statement (i : Instr) : Prop := rowMatches i.row (encode i) = true

/-- A word whose masked bits are known. -/
theorem ofMask {w mask masked m : Word} (h : w &&& mask = masked) (hm : masked = m) : rowMatches (m, mask) w = true :=
  beq_iff_eq.2 (h.trans hm)

theorem scd (n : Nibble) : Statement (.scd n) := by
  unfold Statement
  revert n
  decide
theorem cls : Statement .cls := by unfold Statement; decide
theorem ret : Statement .ret := by unfold Statement; decide
theorem scr : Statement .scr := by unfold Statement; decide
theorem scl : Statement .scl := by unfold Statement; decide
theorem low : Statement .low := by unfold Statement; decide
theorem high : Statement .high := by unfold Statement; decide
theorem jp (nnn : Addr) : Statement (.jp nnn) := ofMask (wordA_and_F000 ..) (by decide)
theorem call (nnn : Addr) : Statement (.call nnn) := ofMask (wordA_and_F000 ..) (by decide)
theorem seImm (x : Reg) (kk : Byte) : Statement (.seImm x kk) := ofMask (wordXK_and_F000 ..) (by decide)
theorem sneImm (x : Reg) (kk : Byte) : Statement (.sneImm x kk) := ofMask (wordXK_and_F000 ..) (by decide)
theorem seReg (x y : Reg) : Statement (.seReg x y) := ofMask (wordXYN_and_F00F ..) (by decide)
theorem ldImm (x : Reg) (kk : Byte) : Statement (.ldImm x kk) := ofMask (wordXK_and_F000 ..) (by decide)
theorem addImm (x : Reg) (kk : Byte) : Statement (.addImm x kk) := ofMask (wordXK_and_F000 ..) (by decide)
theorem orReg (x y : Reg) : Statement (.orReg x y) := ofMask (wordXYN_and_F00F ..) (by decide)
theorem andReg (x y : Reg) : Statement (.andReg x y) := ofMask (wordXYN_and_F00F ..) (by decide)
theorem xorReg (x y : Reg) : Statement (.xorReg x y) := ofMask (wordXYN_and_F00F ..) (by decide)
theorem addReg (x y : Reg) : Statement (.addReg x y) := ofMask (wordXYN_and_F00F ..) (by decide)
theorem sub (x y : Reg) : Statement (.sub x y) := ofMask (wordXYN_and_F00F ..) (by decide)
theorem shr (x y : Reg) : Statement (.shr x y) := ofMask (wordXYN_and_F00F ..) (by decide)
theorem subn (x y : Reg) : Statement (.subn x y) := ofMask (wordXYN_and_F00F ..) (by decide)
theorem shl (x y : Reg) : Statement (.shl x y) := ofMask (wordXYN_and_F00F ..) (by decide)
theorem sneReg (x y : Reg) : Statement (.sneReg x y) := ofMask (wordXYN_and_F00F ..) (by decide)
theorem ldI (nnn : Addr) : Statement (.ldI nnn) := ofMask (wordA_and_F000 ..) (by decide)
theorem jpV0 (nnn : Addr) : Statement (.jpV0 nnn) := ofMask (wordA_and_F000 ..) (by decide)
theorem rnd (x : Reg) (kk : Byte) : Statement (.rnd x kk) := ofMask (wordXK_and_F000 ..) (by decide)
theorem drw (x y : Reg) (n : Nibble) : Statement (.drw x y n) := ofMask (wordXYN_and_F000 ..) (by decide)
theorem skp (x : Reg) : Statement (.skp x) := ofMask (wordXK_and_F0FF ..) (by decide)
theorem sknp (x : Reg) : Statement (.sknp x) := ofMask (wordXK_and_F0FF ..) (by decide)
theorem ldVxDt (x : Reg) : Statement (.ldVxDt x) := ofMask (wordXK_and_F0FF ..) (by decide)
theorem ldVxK (x : Reg) : Statement (.ldVxK x) := ofMask (wordXK_and_F0FF ..) (by decide)
theorem ldDtVx (x : Reg) : Statement (.ldDtVx x) := ofMask (wordXK_and_F0FF ..) (by decide)
theorem addI (x : Reg) : Statement (.addI x) := ofMask (wordXK_and_F0FF ..) (by decide)
theorem ldF (x : Reg) : Statement (.ldF x) := ofMask (wordXK_and_F0FF ..) (by decide)
theorem ldB (x : Reg) : Statement (.ldB x) := ofMask (wordXK_and_F0FF ..) (by decide)
theorem stRegs (x : Reg) : Statement (.stRegs x) := ofMask (wordXK_and_F0FF ..) (by decide)
theorem ldRegs (x : Reg) : Statement (.ldRegs x) := ofMask (wordXK_and_F0FF ..) (by decide)
theorem movReg (x y : Reg) : Statement (.movReg x y) := ofMask (wordXYN_and_F00F ..) (by decide)
theorem ldStVx (x : Reg) : Statement (.ldStVx x) := ofMask (wordXK_and_F0FF ..) (by decide)

end Sys2Proof.Laws.EncodeMatchesRow
end

