-- ==== Sys2Proof/Laws/Step.lean ====
section
/-! SUPPORT. What one step can do, said once (R121): every invariant of a step is a case analysis of `step_cases`. -/

namespace Sys2Proof.Machine

/-- The decoder's unmapped answer names the word it was given. -/
theorem decode_unmapped {w w' : Word} (h : decode w = .unmapped w') : w' = w := by
  unfold decode decodeGroup0 decodeGroup8 decodeGroupE decodeGroupF at h
  repeat' split at h
  all_goals first | (injection h with h; exact h.symm) | (exact absurd h (by simp))

/-- What dispatch answers: an instruction the decoder gives and the machine has, or the word, unmapped. -/
theorem dispatch_instr_iff {c : Config} {w : Word} {ins : Instr} :
    dispatch c w = .instr ins ↔ decode w = .instr ins ∧ ins.wellFormed c = true := by
  unfold dispatch
  split
  · rename_i j hj
    rw [hj]
    constructor
    · intro h
      split at h
      · injection h with h; subst h; exact ⟨rfl, by assumption⟩
      · exact absurd h (by simp)
    · rintro ⟨h, hw⟩
      injection h with h; subst h; simp [hw]
  · rename_i j hj
    simp [hj]

theorem dispatch_unmapped {c : Config} {w w' : Word} (h : dispatch c w = .unmapped w') : w' = w := by
  unfold dispatch at h
  split at h
  · split at h
    · exact absurd h (by simp)
    · injection h with h; exact h.symm
  · rename_i hj
    injection h with h
    exact h ▸ decode_unmapped hj

/-- A step of a running core, from the state `s.beginStep` its instruction starts in: the fetch faulted, the word was unmapped, or an
instruction was executed and the step finished. -/
theorem step_cases {s t : State} (h : step s = .next t) :
    s.run = .running ∧
      ((s.beginStep.fetch = none ∧ t = s.beginStep.raise .addressOutOfRange (s.pc.toNat + 1) none) ∨
       ∃ w, s.beginStep.fetch = some w ∧
        ((dispatch s.cfg w = .unmapped w ∧ t = s.beginStep.raise .unmappedOpcode w.toNat (some w)) ∨
         ∃ ins u, dispatch s.cfg w = .instr ins ∧ exec ins s.beginStep = .next u ∧ t = u.finishStep)) := by
  unfold step at h
  split at h
  · exact absurd h (by simp)
  · refine ⟨by assumption, ?_⟩
    split at h
    · injection h with h
      exact .inl ⟨by assumption, h.symm⟩
    · rename_i w hw
      refine .inr ⟨w, hw, ?_⟩
      unfold runWord at h
      rw [State.beginStep_cfg] at h
      split at h
      · rename_i w' hd
        injection h with h
        have := dispatch_unmapped hd
        subst this
        exact .inl ⟨hd, h.symm⟩
      · rename_i ins hd
        obtain ⟨u, hu, -⟩ := exec_cases ins s.beginStep
        rw [hu] at h
        injection h with h
        exact .inr ⟨ins, u, hd, hu, h.symm⟩

/-- A running core always makes a step. -/
theorem step_answers {s : State} (h : s.run = .running) : ∃ t, step s = .next t := by
  unfold step
  rw [h]
  simp only
  split
  · exact ⟨_, rfl⟩
  · unfold runWord
    split
    · exact ⟨_, rfl⟩
    · rename_i w ins hd
      obtain ⟨u, hu, -⟩ := exec_cases ins s.beginStep
      rw [hu]
      exact ⟨_, rfl⟩

/-- A step that ends halted leaves the batch alone. -/
theorem State.finishStep_halted {s : State} (h : s.run = .halted) : s.finishStep = s := by
  simp [State.finishStep, h]

/-- With free ticks, finishing a step changes nothing. -/
theorem State.finishStep_free {s : State} (h : s.cfg.tickBatch = none) : s.finishStep = s := by
  simp only [State.finishStep, h]; split <;> simp_all

/-- Finishing a step changes only the timers and the batch counter. -/
theorem State.finishStep_eq (s : State) :
    s.finishStep = { s with dt := s.finishStep.dt, st := s.finishStep.st, batchCnt := s.finishStep.batchCnt } := by
  unfold State.finishStep
  split
  · split <;> rfl
  · rfl
  · rfl

@[simp] theorem State.finishStep_cfg (s : State) : s.finishStep.cfg = s.cfg := by rw [State.finishStep_eq]
@[simp] theorem State.finishStep_mem (s : State) : s.finishStep.mem = s.mem := by rw [State.finishStep_eq]
@[simp] theorem State.finishStep_v (s : State) : s.finishStep.v = s.v := by rw [State.finishStep_eq]
@[simp] theorem State.finishStep_i (s : State) : s.finishStep.i = s.i := by rw [State.finishStep_eq]
@[simp] theorem State.finishStep_pc (s : State) : s.finishStep.pc = s.pc := by rw [State.finishStep_eq]
@[simp] theorem State.finishStep_sp (s : State) : s.finishStep.sp = s.sp := by rw [State.finishStep_eq]
@[simp] theorem State.finishStep_stack (s : State) : s.finishStep.stack = s.stack := by rw [State.finishStep_eq]
@[simp] theorem State.finishStep_keys (s : State) : s.finishStep.keys = s.keys := by rw [State.finishStep_eq]
@[simp] theorem State.finishStep_mode (s : State) : s.finishStep.mode = s.mode := by rw [State.finishStep_eq]
@[simp] theorem State.finishStep_disp (s : State) : s.finishStep.disp = s.disp := by rw [State.finishStep_eq]
@[simp] theorem State.finishStep_run (s : State) : s.finishStep.run = s.run := by rw [State.finishStep_eq]
@[simp] theorem State.finishStep_fault (s : State) : s.finishStep.fault = s.fault := by rw [State.finishStep_eq]
@[simp] theorem State.finishStep_redrawReq (s : State) : s.finishStep.redrawReq = s.redrawReq := by rw [State.finishStep_eq]
@[simp] theorem State.finishStep_waiting (s : State) : s.finishStep.waiting = s.waiting := by rw [State.finishStep_eq]
@[simp] theorem State.finishStep_stepNo (s : State) : s.finishStep.stepNo = s.stepNo := by rw [State.finishStep_eq]
@[simp] theorem State.finishStep_rndNo (s : State) : s.finishStep.rndNo = s.rndNo := by rw [State.finishStep_eq]

end Sys2Proof.Machine
end

