-- ==== Sys2Proof/Tests/Slice0.lean ====
section
/-! SUPPORT. Small tests. Every expected value is from spec/95_test_vectors.md (the part is named) or from the encoding table of
30_encoding R96. The theorems named witness_<Name> show that the hypotheses of Obligations.<Name> can be met together, clause by
clause at the edges of their ranges. -/

namespace Sys2Proof.Machine.Tests

/-! ### Well-formedness: an optional row is refused unless enabled -/

theorem test_wellFormed_movReg_refused : (Instr.movReg 1 2).wellFormed Config.default = false := by decide
theorem test_wellFormed_ldStVx_refused : (Instr.ldStVx 1).wellFormed Config.default = false := by decide
theorem test_wellFormed_movReg_enabled : (Instr.movReg 1 2).wellFormed { Config.default with hasMov := true } = true := by decide
theorem test_wellFormed_ldStVx_enabled : (Instr.ldStVx 1).wellFormed { Config.default with hasSoundTimer := true } = true := by decide
theorem test_wellFormed_core_rows : Instr.cls.wellFormed Config.default = true := by decide
/-- R5: a font past the program origin, a short font and an empty batch are not allowed. -/
theorem test_config_refused : Config.wf { Config.default with fontBase := 433 } = false
    ∧ Config.wf { Config.default with fontGlyphs := [] } = false ∧ Config.wf { Config.default with tickBatch := some 0 } = false := by
  decide
theorem test_config_allowed : Config.wf { Config.default with fontBase := 432, tickBatch := some 1 } = true := by decide

/-! ### Decoding: a word of every constructor, from the patterns of R96 and Part 2 -/

theorem test_decode_cls : decode 0x00E0 = .instr .cls := by decide
theorem test_decode_ret : decode 0x00EE = .instr .ret := by decide
theorem test_decode_scd : decode 0x00CF = .instr (.scd 15) ∧ decode 0x00C0 = .instr (.scd 0) := by decide
theorem test_decode_scr : decode 0x00FB = .instr .scr := by decide
theorem test_decode_scl : decode 0x00FC = .instr .scl := by decide
theorem test_decode_low : decode 0x00FE = .instr .low := by decide
theorem test_decode_high : decode 0x00FF = .instr .high := by decide
theorem test_decode_jp : decode 0x1ABC = .instr (.jp 0xABC) := by decide
theorem test_decode_call : decode 0x2ABC = .instr (.call 0xABC) := by decide
theorem test_decode_seImm : decode 0x3A7F = .instr (.seImm 10 0x7F) := by decide
theorem test_decode_sneImm : decode 0x4008 = .instr (.sneImm 0 8) := by decide
theorem test_decode_seReg : decode 0x5AB0 = .instr (.seReg 10 11) := by decide
theorem test_decode_ldImm : decode 0x6005 = .instr (.ldImm 0 5) := by decide
theorem test_decode_addImm : decode 0x7F02 = .instr (.addImm 15 2) := by decide
theorem test_decode_orReg : decode 0x8AB1 = .instr (.orReg 10 11) := by decide
theorem test_decode_andReg : decode 0x8AB2 = .instr (.andReg 10 11) := by decide
theorem test_decode_xorReg : decode 0x8AB3 = .instr (.xorReg 10 11) := by decide
theorem test_decode_addReg : decode 0x8AB4 = .instr (.addReg 10 11) := by decide
theorem test_decode_sub : decode 0x8AB5 = .instr (.sub 10 11) := by decide
theorem test_decode_shr : decode 0x8AB6 = .instr (.shr 10 11) := by decide
theorem test_decode_subn : decode 0x8AB7 = .instr (.subn 10 11) := by decide
theorem test_decode_shl : decode 0x8ABE = .instr (.shl 10 11) := by decide
theorem test_decode_sneReg : decode 0x9AB0 = .instr (.sneReg 10 11) := by decide
theorem test_decode_ldI : decode 0xA123 = .instr (.ldI 0x123) := by decide
theorem test_decode_jpV0 : decode 0xB123 = .instr (.jpV0 0x123) := by decide
theorem test_decode_rnd : decode 0xC1FF = .instr (.rnd 1 0xFF) := by decide
theorem test_decode_drw : decode 0xD12F = .instr (.drw 1 2 15) ∧ decode 0xD120 = .instr (.drw 1 2 0) := by decide
theorem test_decode_skp : decode 0xE19E = .instr (.skp 1) := by decide
theorem test_decode_sknp : decode 0xE1A1 = .instr (.sknp 1) := by decide
theorem test_decode_ldVxDt : decode 0xF107 = .instr (.ldVxDt 1) := by decide
theorem test_decode_ldVxK : decode 0xF10A = .instr (.ldVxK 1) := by decide
theorem test_decode_ldDtVx : decode 0xF115 = .instr (.ldDtVx 1) := by decide
theorem test_decode_addI : decode 0xF11E = .instr (.addI 1) := by decide
theorem test_decode_ldF : decode 0xF129 = .instr (.ldF 1) := by decide
theorem test_decode_ldB : decode 0xF133 = .instr (.ldB 1) := by decide
theorem test_decode_stRegs : decode 0xF155 = .instr (.stRegs 1) := by decide
theorem test_decode_ldRegs : decode 0xF165 = .instr (.ldRegs 1) := by decide
theorem test_decode_movReg : decode 0x8120 = .instr (.movReg 1 2) := by decide
theorem test_decode_ldStVx : decode 0xF118 = .instr (.ldStVx 1) := by decide
/-- Part 2, the unmapped words. -/
theorem test_decode_unmapped :
    ([0x0000, 0x00E1, 0x00FD, 0x0123, 0x00FA, 0x01E0, 0x5121, 0x9121, 0x8128, 0x812F, 0xE100, 0xE19F, 0xF100, 0xF130, 0xF175, 0xF185,
      0xFFFF] : List Word).all (fun w => decide (decode w = .unmapped w)) = true := by decide
theorem test_dispatch_optional_rows_absent :
    dispatch Config.default 0x8120 = .unmapped 0x8120 ∧ dispatch Config.default 0xF118 = .unmapped 0xF118 := by decide
/-- S1: the fields of 0xD125. -/
theorem test_fields : fieldN3 0xD125 = 0xD ∧ fieldN2 0xD125 = 1 ∧ fieldN1 0xD125 = 2 ∧ fieldN0 0xD125 = 5
    ∧ fieldNNN 0xD125 = 0x125 ∧ fieldKK 0xD125 = 0x25 ∧ wordOfBytes 0xD1 0x25 = 0xD125 := by decide
theorem test_decodeTableWord : decodeTableWord 16 0xD125 = some (.drw 1 2 5) ∧ decodeTableWord 16 0x00FD = none := by decide

/-! ### Executing: one instruction on a small state -/

/-- The reset state with some registers set. -/
def regs (l : List (Reg × Byte)) : State := l.foldl (fun s p => s.setReg p.1 p.2) State.reset

/-- A state with I at 0x300 and bytes there. -/
def at300 (l : List (Reg × Byte)) (bytes : List Byte) : State := ((regs l).putBytes 0x300 bytes).setI 0x300

/-- The state with one display cell set. -/
def plot (s : State) (c r : Nat) : State := s.setDisp (s.disp.set (r * s.mode.cols + c) true)

/-- One question asked of the state after an instruction; no answer after a stop. -/
def after {α : Type} (ins : Instr) (s : State) (f : State → α) : Option α :=
  match exec ins s with
  | .next t => some (f t)
  | .fault _ => none
  | .refused _ => none

/-- One question asked of the state after a step. -/
def afterStep {α : Type} (s : State) (f : State → α) : Option α :=
  match step s with
  | .next t => some (f t)
  | .fault _ => none
  | .refused _ => none

-- 3.1 Screen control
theorem test_cls : after .cls (plot State.reset 0 0) (fun t => (t.pixel 0 0, t.redrawReq, t.pc)) = some (false, true, 0x202) := by
  decide
theorem test_high_clears : after .high (plot State.reset 0 0) (fun t => (t.mode, t.pixel 0 0, t.redrawReq))
    = some (.high, false, false) := by decide
theorem test_low_same_mode_clears : after .low (plot State.reset 1 1) (fun t => (t.mode, t.pixel 1 1)) = some (.low, false) := by
  decide
theorem test_scd : after (.scd 3) (plot (plot State.reset 5 30) 7 0) (fun t => (t.pixel 7 3, t.pixel 7 0)) = some (true, false) := by
  decide +kernel
theorem test_scd_zero : after (.scd 0) (plot State.reset 0 1) (fun t => t.pixel 0 1) = some true := by decide +kernel
theorem test_scr : after .scr (plot (plot State.reset 0 0) 62 1) (fun t => (t.pixel 4 0, t.pixel 0 0, t.pixel 2 2))
    = some (true, false, false) := by decide +kernel
theorem test_scl : after .scl (plot (plot State.reset 3 0) 10 2) (fun t => (t.pixel 6 2, t.pixel 3 0, t.pixel 10 2))
    = some (true, false, false) := by decide

-- 3.2 Control flow
theorem test_jp : after (.jp 0x20C) (State.reset.setPc 0x20A) (·.pc) = some 0x20C := by decide
theorem test_call : after (.call 0x210) (State.reset.setPc 0x204) (fun t => (t.stack[0], t.sp, t.pc)) = some (0x206, 1, 0x210) := by
  decide +kernel
theorem test_call_overflow : after (.call 0x300) { State.reset with sp := 128 } (fun t => (t.run, t.fault, t.sp, t.pc))
    = some (.halted, some ⟨.stackOverflow, 128, 0x200, some 0x2300⟩, 128, 0x200) := by decide
theorem test_ret : after .ret (State.reset.push 0x206) (fun t => (t.sp, t.pc)) = some (0, 0x206) := by decide +kernel
theorem test_ret_underflow : after .ret State.reset (fun t => (t.run, t.fault, t.pc))
    = some (.halted, some ⟨.stackUnderflow, 0, 0x200, some 0x00EE⟩, 0x200) := by decide
theorem test_seImm_taken : after (.seImm 1 0) (State.reset.setPc 0x208) (·.pc) = some 0x20C := by decide
theorem test_seImm_not_taken : after (.seImm 1 0) ((regs [(1, 4)]).setPc 0x208) (·.pc) = some 0x20A := by decide
theorem test_sneImm_not_taken : after (.sneImm 0 8) ((regs [(0, 8)]).setPc 0x300) (·.pc) = some 0x302 := by decide
theorem test_sneImm_taken : after (.sneImm 0 8) ((regs [(0, 9)]).setPc 0x300) (·.pc) = some 0x304 := by decide
theorem test_seReg_taken : after (.seReg 2 3) ((regs [(2, 7), (3, 7)]).setPc 0x220) (·.pc) = some 0x224 := by decide
theorem test_seReg_not_taken : after (.seReg 2 3) ((regs [(2, 7), (3, 8)]).setPc 0x220) (·.pc) = some 0x222 := by decide
theorem test_sneReg_taken : after (.sneReg 2 3) ((regs [(2, 7), (3, 8)]).setPc 0x220) (·.pc) = some 0x224 := by decide
theorem test_sneReg_same : after (.sneReg 1 1) (regs [(1, 3)]) (·.pc) = some 0x202 := by decide
theorem test_jpV0 : after (.jpV0 0x300) (regs [(0, 4)]) (·.pc) = some 0x304 := by decide
theorem test_jpV0_not_reduced : after (.jpV0 0xFFF) (regs [(0, 0xFF)]) (·.pc) = some 0x10FE := by decide

-- 3.3 Immediates
theorem test_ldImm : after (.ldImm 15 0xAB) State.reset (·.reg 15) = some 0xAB := by decide
theorem test_addImm_wraps_without_flag : after (.addImm 1 1) (regs [(1, 0xFF), (15, 3)]) (fun t => (t.reg 1, t.reg 15)) = some (0, 3) := by
  decide

-- 3.4 Arithmetic
theorem test_orReg : after (.orReg 1 2) (regs [(1, 0x0F), (2, 0xF0), (15, 7)]) (fun t => (t.reg 1, t.reg 15)) = some (0xFF, 7) := by
  decide
theorem test_andReg : after (.andReg 1 2) (regs [(1, 0x3C), (2, 0x0F)]) (·.reg 1) = some 0x0C := by decide
theorem test_xorReg : after (.xorReg 1 2) (regs [(1, 0xFF), (2, 0x0F)]) (·.reg 1) = some 0xF0 := by decide
theorem test_addReg_carry : after (.addReg 1 2) (regs [(1, 0xFF), (2, 0xFF)]) (fun t => (t.reg 1, t.reg 15)) = some (0xFE, 1) := by
  decide
theorem test_addReg_into_vf : after (.addReg 15 1) (regs [(15, 200), (1, 100)]) (fun t => (t.reg 15, t.reg 1)) = some (0x2C, 100) := by
  decide
theorem test_sub_equal_is_strict : after (.sub 1 2) (regs [(1, 7), (2, 7)]) (fun t => (t.reg 1, t.reg 15)) = some (0, 0) := by decide
theorem test_sub_from_vf : after (.sub 1 15) (regs [(1, 9), (15, 4)]) (fun t => (t.reg 1, t.reg 15)) = some (5, 1) := by decide
theorem test_subn : after (.subn 1 2) (regs [(1, 3), (2, 10)]) (fun t => (t.reg 1, t.reg 15)) = some (7, 1) := by decide
theorem test_subn_borrow : after (.subn 1 2) (regs [(1, 10), (2, 3)]) (fun t => (t.reg 1, t.reg 15)) = some (0xF9, 0) := by decide
theorem test_shr_ignores_y : after (.shr 1 2) (regs [(1, 6), (2, 0xFF)]) (fun t => (t.reg 1, t.reg 2, t.reg 15))
    = some (3, 0xFF, 0) := by decide
theorem test_shr_source_y :
    after (.shr 1 2) { regs [(1, 6), (2, 0xFF)] with cfg := { Config.default with shiftSrc := .y } }
      (fun t => (t.reg 1, t.reg 2, t.reg 15)) = some (0x7F, 0xFF, 1) := by decide
theorem test_shl : after (.shl 1 0) (regs [(1, 0x81)]) (fun t => (t.reg 1, t.reg 15)) = some (2, 1) := by decide
theorem test_shl_into_vf : after (.shl 15 0) (regs [(15, 0x81)]) (·.reg 15) = some 2 := by decide
theorem test_movReg : afterStep ({ regs [(2, 7)] with cfg := { Config.default with hasMov := true } }.withFetchWord 16 0x8120)
    (·.reg 1) = some 7 := by decide

-- 3.5 Index, random
theorem test_ldI : after (.ldI 0xFFF) State.reset (·.i) = some 0xFFF := by decide
/-- The mask 0 gives 0 whatever the random byte is. -/
theorem test_rnd_masked : after (.rnd 1 0) (regs [(1, 9)]) (fun t => (t.reg 1, t.rndNo))
    = some (Config.rndPort 0 &&& 0, 1) := rfl

-- 3.6 draw-sprite
theorem test_drw_clips : after (.drw 0 1 1) (at300 [(0, 62)] [0xFF]) (fun t => (t.pixel 62 0, t.pixel 63 0, t.pixel 0 0, t.reg 15))
    = some (true, true, false, 0) := by decide +kernel
theorem test_drw_collides : after (.drw 0 1 1) (plot (at300 [] [0x3C]) 3 0) (fun t => (t.pixel 2 0, t.pixel 3 0, t.reg 15, t.redrawReq))
    = some (true, false, 1, true) := by decide

-- 3.7 Keys
theorem test_skp : after (.skp 3) { (regs [(3, 0x0A)]).setPc 0x240 with keys := 0x0400 } (·.pc) = some 0x244 := by decide
theorem test_skp_fault : after (.skp 1) { regs [(1, 16)] with keys := 0xFFFF } (fun t => (t.fault, t.pc))
    = some (some ⟨.keyIndexOutOfRange, 16, 0x200, some 0xE19E⟩, 0x200) := by decide
theorem test_sknp : after (.sknp 3) { (regs [(3, 0x0A)]).setPc 0x240 with keys := 0x0400 } (·.pc) = some 0x242 := by decide
theorem test_sknp_fault : after (.sknp 1) (regs [(1, 255)]) (·.fault)
    = some (some ⟨.keyIndexOutOfRange, 255, 0x200, some 0xE1A1⟩) := by decide
theorem test_ldVxK_highest : after (.ldVxK 5) { State.reset.setPc 0x250 with keys := 0x0204 } (fun t => (t.reg 5, t.pc))
    = some (9, 0x252) := by decide
theorem test_ldVxK_waits : after (.ldVxK 5) ((regs [(5, 0x77)]).setPc 0x250) (fun t => (t.reg 5, t.pc, t.waiting))
    = some (0x77, 0x250, true) := by decide

-- 3.8 Timer, index, memory
theorem test_ldVxDt : after (.ldVxDt 2) (State.reset.setDt 0x3C) (·.reg 2) = some 0x3C := by decide
theorem test_ldDtVx : after (.ldDtVx 2) (regs [(2, 60)]) (·.dt) = some 60 := by decide
theorem test_ldStVx : afterStep ({ regs [(1, 5)] with cfg := { Config.default with hasSoundTimer := true } }.withFetchWord 16 0xF118)
    (fun t => (t.st, t.reg 1)) = some (5, 5) := by decide
theorem test_addI_wraps : after (.addI 1) ((regs [(1, 0xFF)]).setI 0xFF0) (fun t => (t.i, t.reg 15)) = some (0x0EF, 1) := by decide
theorem test_addI_keeps_vf : after (.addI 15) ((regs [(15, 2)]).setI 0x100) (fun t => (t.i, t.reg 15)) = some (0x102, 2) := by decide
theorem test_ldF : after (.ldF 0) (regs [(0, 0xFF)]) (·.i) = some 0x4FB := by decide
/-- S8. -/
theorem test_ldB : after (.ldB 0) (at300 [(0, 0xEA)] []) (fun t => (t.byteAt 0x300, t.byteAt 0x301, t.byteAt 0x302, t.i))
    = some (2, 3, 4, 0x300) := by decide
theorem test_ldB_fault : after (.ldB 0) (State.reset.setI 0xFFE) (fun t => (t.fault, t.mem))
    = some (some ⟨.addressOutOfRange, 4096, 0x200, some 0xF033⟩, []) := by decide
theorem test_stRegs : after (.stRegs 2) (at300 [(0, 1), (1, 2), (2, 3), (3, 4)] [0, 0, 0, 0x99])
    (fun t => (t.byteAt 0x300, t.byteAt 0x301, t.byteAt 0x302, t.byteAt 0x303)) = some (1, 2, 3, 0x99) := by decide
theorem test_stRegs_fault : after (.stRegs 2) (State.reset.setI 0xFFE) (fun t => (t.fault, t.mem))
    = some (some ⟨.addressOutOfRange, 4096, 0x200, some 0xF255⟩, []) := by decide
theorem test_ldRegs : after (.ldRegs 2) (at300 [(3, 0x77)] [2, 3, 4, 5]) (fun t => (t.reg 0, t.reg 1, t.reg 2, t.reg 3))
    = some (2, 3, 4, 0x77) := by decide
theorem test_ldRegs_fault : after (.ldRegs 1) (State.reset.setI 0xFFF) (·.fault)
    = some (some ⟨.addressOutOfRange, 4096, 0x200, some 0xF165⟩) := by decide

-- 3.2 and 3.9: the step and the ticks
theorem test_step_empty_image : afterStep State.reset (fun t => (t.run, t.fault, t.pc))
    = some (.halted, some ⟨.unmappedOpcode, 0, 0x200, some 0⟩, 0x200) := by decide
theorem test_step_fetch_at_the_top : afterStep (State.reset.setPc 0xFFF) (fun t => (t.fault, t.pc))
    = some (some ⟨.addressOutOfRange, 4096, 0xFFF, none⟩, 0xFFF) := by decide
theorem test_step_odd_pc : afterStep ((State.reset.putBytes 0x201 [0x6A, 0x55]).setPc 0x201) (fun t => (t.reg 10, t.pc))
    = some (0x55, 0x203) := by decide
theorem test_step_halted : afterStep { State.reset with run := .halted } (·.pc) = none := by decide
theorem test_tick_floor : (State.reset.tick).dt = 0 ∧ ((State.reset.setDt 2).tick).dt = 1 ∧ ((State.reset.setDt 255).ticks 300).dt = 0 := by
  decide
theorem test_batch_ticks :
    afterStep ({ State.reset with cfg := { Config.default with tickBatch := some 2 }, batchCnt := 1, dt := 5 }.withFetchWord 16 0x6000)
      (fun t => (t.batchCnt, t.dt)) = some (0, 4) := by decide
theorem test_batch_fault_does_not_count :
    afterStep { State.reset with cfg := { Config.default with tickBatch := some 2 }, batchCnt := 1, dt := 5 }
      (fun t => (t.batchCnt, t.dt, t.run)) = some (1, 5, .halted) := by decide
/-- R61, R311: the glyph of 2 at address 10, and the zero before the program. -/
theorem test_reset_memory : State.reset.byteAt 0 = 0xF0 ∧ State.reset.byteAt 10 = 0xF0 ∧ State.reset.byteAt 12 = 0xF0
    ∧ State.reset.byteAt 13 = 0x80 ∧ State.reset.byteAt 79 = 0x80 ∧ State.reset.byteAt 80 = 0 ∧ State.reset.byteAt 0x200 = 0 := by
  decide

/-! ### Witnesses: the hypotheses of the statements can be met -/

theorem witness_EncodeInvertsDecode : decode 0xF165 = .instr (.ldRegs 1) := by decide

theorem witness_OpcodeRowsAreDisjoint :
    ((0x8000, 0xF00F) : OpcodeRow) ∈ enabledRows { Config.default with hasMov := true } ∧ rowMatches (0x8000, 0xF00F) 0x8120 = true := by
  decide

theorem witness_UnmappedExactlyWhenNoRowMatches :
    dispatch Config.default 0x8120 = .unmapped 0x8120
      ∧ (∀ row ∈ enabledRows Config.default, rowMatches row 0x8120 = false)
      ∧ dispatch { Config.default with hasMov := true } 0x8120 = .instr (.movReg 1 2) := by
  have : (enabledRows Config.default).all (fun row => !rowMatches row 0x8120) = true := by decide
  exact ⟨by decide, by simpa using this, by decide⟩

/-- The buffer of the reset state and that of the high-resolution mode have the size of their mode (the scrolls, draw-sprite). -/
theorem witness_disp_size : State.reset.disp.length = State.reset.mode.cols * State.reset.mode.rows
    ∧ (State.reset.switchMode .high).disp.length = Mode.high.cols * Mode.high.rows :=
  ⟨List.length_replicate, List.length_replicate⟩

/-- The corners of both grids, and a scroll amount that is a row of the grid. -/
theorem witness_onGrid : State.reset.onGrid 0 0 ∧ State.reset.onGrid 63 31 ∧ (State.reset.switchMode .high).onGrid 127 63
    ∧ (15 : Nibble).toNat ≤ 15 ∧ ¬ (15 : Nibble).toNat ≤ 14 := by
  unfold State.onGrid
  decide

theorem witness_ReturnPopsOrUnderflows : State.reset.sp = 0 ∧ 0 < (State.reset.push 0x206).sp.val
    ∧ 0 < ({ State.reset with sp := 128 } : State).sp.val := by decide

theorem witness_CallPushesOrOverflows : ({ State.reset with sp := 128 } : State).sp = 128
    ∧ ({ State.reset with sp := 127 } : State).sp.val < 128 ∧ State.reset.sp.val < 128 := by decide

theorem witness_SkipsComparingRegisters : (1 : Nibble) ≠ 0 ∧ (15 : Nibble) ≠ 0 := by decide

/-- A destination other than VF, for the status clauses of ADD, SUB, SUB-reverse and the shifts. -/
theorem witness_status_register : (0 : Reg) ≠ 15 ∧ (14 : Reg) ≠ 15 := by decide

theorem witness_shift_source :
    (0x81 : Byte) = (if (regs [(1, 0x81)]).cfg.shiftSrc = .x then (regs [(1, 0x81)]).reg 1 else (regs [(1, 0x81)]).reg 2)
      ∧ (7 : Byte) = (if ({ regs [(2, 7)] with cfg := { Config.default with shiftSrc := .y } } : State).cfg.shiftSrc = .x then
          (regs [(2, 7)]).reg 1 else (regs [(2, 7)]).reg 2) := by decide

/-- Extents that end at 4095 and at 4096, for a 16x16 sprite and one of 15 rows. -/
theorem witness_DrawTogglesSpriteCells_extent :
    (State.reset.setI 0xFE0).i.toNat + (if (0 : Nibble) = 0 then 32 else 0) ≤ 4096
      ∧ 4096 < (State.reset.setI 0xFE1).i.toNat + (if (0 : Nibble) = 0 then 32 else 0)
      ∧ (State.reset.setI 0xFF1).i.toNat + (15 : Nibble).toNat ≤ 4096
      ∧ 4096 < (State.reset.setI 0xFF2).i.toNat + (15 : Nibble).toNat := by decide

/-- The leftmost pixel of a sprite byte 0x80 lands on its anchor. -/
theorem witness_SpriteLandsOn : SpriteLandsOn (at300 [] [0x80]) 0 1 1 0 0 := ⟨0, 0, by decide⟩

/-- A cell beside it is not landed on. -/
theorem witness_not_SpriteLandsOn : ¬ SpriteLandsOn (at300 [] [0x80]) 0 1 1 8 0 := by
  rintro ⟨row, col, -, hc, -, h, -⟩
  have : (at300 [] [0x80]).reg 0 = 0 := by decide
  rw [this] at h
  simp at h hc
  omega

/-- A cell that is set and landed on: the collision clause. -/
theorem witness_collision : ∃ c r, (plot (at300 [] [0x80]) 0 0).onGrid c r ∧ SpriteLandsOn (plot (at300 [] [0x80]) 0 0) 0 1 1 c r
    ∧ (plot (at300 [] [0x80]) 0 0).pixel c r = true :=
  ⟨0, 0, by unfold State.onGrid; decide, ⟨0, 0, by decide⟩, by decide⟩

theorem witness_DrawTwiceRestoresTheDisplay : ∃ t u, (at300 [(0, 5)] [0xFF]).i.toNat + (if (1 : Nibble) = 0 then 32 else 1) ≤ 4096
    ∧ exec (.drw 0 1 1) (at300 [(0, 5)] [0xFF]) = .next t ∧ t.reg 0 = (at300 [(0, 5)] [0xFF]).reg 0
    ∧ t.reg 1 = (at300 [(0, 5)] [0xFF]).reg 1 ∧ exec (.drw 0 1 1) t = .next u :=
  ⟨_, _, by decide, rfl, by decide +kernel, by decide +kernel, rfl⟩

theorem witness_KeySkipsTestTheLatch : ((regs [(3, 15)]).reg 3).toNat ≤ 15 ∧ 15 < ((regs [(3, 16)]).reg 3).toNat := by decide

theorem witness_WaitForKey : (∀ k, k < 16 → State.reset.keys.getLsbD k = false)
    ∧ (∀ j, 9 < j → j < 16 → (0x0204 : BitVec 16).getLsbD j = false) ∧ (0x0204 : BitVec 16).getLsbD 9 = true
    ∧ (0x8001 : BitVec 16).getLsbD 15 = true ∧ (0x0001 : BitVec 16).getLsbD 0 = true
    ∧ (∀ j, 0 < j → j < 16 → (0x0001 : BitVec 16).getLsbD j = false) := by
  refine ⟨by decide, ?_, by decide, by decide, by decide, ?_⟩ <;> (intro j h1 h2; interval_cases j <;> decide)

theorem witness_GlyphIndex : State.reset.cfg.wf = true ∧ Config.wf { Config.default with fontBase := 432 } = true := by decide

/-- The canonical memories of the reset state and of a state with bytes stored. -/
theorem witness_memory_wf : Memory.wf Config.default State.reset.mem ∧ Memory.wf Config.default (at300 [] [1, 2, 3]).mem := by decide

/-- Transfers that end at 4095 and at 4096: binary-coded-decimal, store-registers and load-registers. -/
theorem witness_transfer_extent : (State.reset.setI 0xFFD).i.toNat + 2 ≤ 4095 ∧ 4095 < (State.reset.setI 0xFFE).i.toNat + 2
    ∧ (State.reset.setI 0xFF0).i.toNat + (15 : Reg).val ≤ 4095 ∧ 4095 < (State.reset.setI 0xFF1).i.toNat + (15 : Reg).val
    ∧ (State.reset.setI 0xFFF).i.toNat + (0 : Reg).val ≤ 4095 := by decide

/-- A register at the transfer's end and one past it. -/
theorem witness_transfer_registers : (3 : Reg).val ≤ (3 : Reg).val ∧ (3 : Reg).val < (4 : Reg).val ∧ (0 : Reg).val ≤ (0 : Reg).val := by
  decide

theorem witness_LoadAfterStoreRestoresRegisters : ∃ t u, Memory.wf Config.default (at300 [(0, 7)] []).mem
    ∧ (at300 [(0, 7)] []).i.toNat + (1 : Reg).val ≤ 4095 ∧ exec (.stRegs 1) (at300 [(0, 7)] []) = .next t
    ∧ exec (.ldRegs 1) { t with v := Vector.replicate 16 9 } = .next u :=
  ⟨_, _, by decide, by decide, rfl, rfl⟩

theorem witness_FetchSeesStoredBytes : ∃ t, Memory.wf Config.default (at300 [(0, 0x12)] []).mem
    ∧ (at300 [(0, 0x12)] []).i.toNat + (1 : Reg).val ≤ 4095 ∧ exec (.stRegs 1) (at300 [(0, 0x12)] []) = .next t
    ∧ (1 : Reg).val = (0 : Reg).val + 1 ∧ (1 : Reg).val ≤ (1 : Reg).val
    ∧ (0x300 : Word).toNat = (at300 [(0, 0x12)] []).i.toNat + (0 : Reg).val :=
  ⟨_, by decide, by decide, rfl, by decide, by decide, by decide⟩

theorem witness_StepRunsTheDecodedInstruction : (State.reset.withFetchWord 16 0x6005).run = .running
    ∧ (State.reset.withFetchWord 16 0x6005).beginStep.fetch = some 0x6005 ∧ decode 0x6005 = .instr (.ldImm 0 5)
    ∧ (Instr.ldImm 0 5).wellFormed State.reset.cfg = true := by decide

theorem witness_StepBeginsWithTicksAndKeyRefresh : State.reset.cfg.hasSoundTimer = false ∧ State.reset.cfg.tickBatch = none
    ∧ Config.hasSoundTimer { Config.default with hasSoundTimer := true } = true
    ∧ Config.tickBatch { Config.default with tickBatch := some 1 } ≠ none := by decide

theorem witness_StepEnabledExactlyWhenRunning : State.reset.run = .running
    ∧ ({ State.reset with run := .halted } : State).run = .halted := by decide

theorem witness_FetchReadsTwoBytesOrFaults : (State.reset.setPc 0xFFE).pc.toNat + 1 ≤ 4095
    ∧ (State.reset.setPc 0xFFF).run = .running ∧ 4095 < (State.reset.setPc 0xFFF).pc.toNat + 1 := by decide

theorem witness_UnmappedWordFaults : State.reset.run = .running ∧ State.reset.beginStep.fetch = some 0
    ∧ ∀ row ∈ enabledRows State.reset.cfg, rowMatches row 0 = false := by
  have : (enabledRows Config.default).all (fun row => !rowMatches row 0) = true := by decide
  exact ⟨by decide, by decide, fun row h => by simpa using List.all_eq_true.1 this row h⟩

theorem witness_FaultingStep : ∃ t, step State.reset = .next t ∧ t.run = .halted := ⟨_, rfl, rfl⟩

/-- A step that answers: the statements about every step. -/
theorem witness_step : ∃ t, step (State.reset.withFetchWord 16 0x00E0) = .next t ∧ t.run = .running ∧ t.redrawReq = true :=
  ⟨_, rfl, by decide, by decide⟩

/-- Under TICK_BATCH = 2, a step that faults, a step that counts, and the step that ticks. -/
theorem witness_BatchTicksAfterEveryNthStep :
    Config.tickBatch { Config.default with tickBatch := some 2 } = some 2
    ∧ afterStep { State.reset with cfg := { Config.default with tickBatch := some 2 } } (·.run) = some .halted
    ∧ afterStep ({ State.reset with cfg := { Config.default with tickBatch := some 2 } }.withFetchWord 16 0x6000)
        (fun t => (t.run, t.batchCnt)) = some (.running, 1)
    ∧ afterStep ({ State.reset with cfg := { Config.default with tickBatch := some 2 }, batchCnt := 1 }.withFetchWord 16 0x6000)
        (fun t => (t.run, t.batchCnt)) = some (.running, 0) := by decide

/-- Each piece of special state is changed by some instruction. -/
theorem witness_SpecialStateWriters :
    after (.call 0x300) State.reset (fun t => decide (t.sp ≠ 0) && decide (t.stack[0] ≠ 0)) = some true
    ∧ after .ret (State.reset.push 0x206) (fun t => decide (t.sp ≠ 1)) = some true
    ∧ after (.ldI 5) State.reset (fun t => decide (t.i ≠ 0)) = some true
    ∧ after (.ldDtVx 2) (regs [(2, 60)]) (fun t => decide (t.dt ≠ 0)) = some true
    ∧ after (.ldStVx 2) (regs [(2, 60)]) (fun t => decide (t.st ≠ 0)) = some true
    ∧ after .high State.reset (fun t => decide (t.mode ≠ .low)) = some true
    ∧ after .cls (plot State.reset 0 0) (fun t => decide (t.pixel 0 0 ≠ true)) = some true
    ∧ after (.stRegs 0) (at300 [(0, 1)] []) (fun t => decide (t.mem ≠ [])) = some true := by decide +kernel

theorem witness_RegisterWriters : (∃ t, exec (.addReg 1 2) State.reset = .next t) ∧ (2 : Reg) ∉ regsWritten (.addReg 1 2)
    ∧ (3 : Reg) ∉ regsWritten (.ldRegs 2) := ⟨⟨_, rfl⟩, by decide⟩

theorem witness_PcChangesAsListed : ∃ t, State.reset.run = .running ∧ exec (.jpV0 0x300) State.reset = .next t ∧ t.run = .running :=
  ⟨_, rfl, rfl, rfl⟩

theorem witness_KeysSeenOnlyByKeyInstructions :
    (∀ x, Instr.cls ≠ .skp x ∧ Instr.cls ≠ .sknp x ∧ Instr.cls ≠ .ldVxK x) ∧ ∃ t, exec .cls State.reset = .next t :=
  ⟨by decide, _, rfl⟩

theorem witness_SelfJumpSettles : (State.reset.withFetchWord 16 0x1200).SettledAt 0x200 := by
  unfold State.SettledAt
  decide

theorem witness_BootGivesTheResetState : Config.default.wf = true ∧ (List.replicate 3584 (0 : Byte)).length ≤ 3584
    ∧ 3584 < (List.replicate 3585 (0 : Byte)).length :=
  ⟨by decide, by rw [List.length_replicate], by rw [List.length_replicate]; decide⟩

theorem witness_BootMeetsTheInvariant : ∃ s, Config.default.wf = true ∧ State.boot Config.default [0x60, 0x05] = some s :=
  ⟨_, by decide, rfl⟩

/-- A state in the middle of a run: a subroutine entered, bytes stored, a timer counting, an instruction at PC. -/
def busy : State := { (at300 [(0, 1)] [1, 2, 3]).push 0x206 with dt := 60, pc := 0x300, keys := 0x8001 }

theorem witness_StepKeepsTheInvariant : busy.Inv ∧ ∃ t, step busy = .next t :=
  ⟨⟨by decide, by decide, by decide, by decide, by decide +kernel, by decide, by decide, by decide, List.length_replicate, by decide,
    nofun, by decide⟩, _, rfl⟩

end Sys2Proof.Machine.Tests
end

section
/-! What an executed instruction does, said once (`exec_next_effect`): it raises a fault, or it completes with its effect
(`effectOf`). One lemma per piece of state names the instructions whose effect changes it. -/

namespace Sys2Proof.Machine

/-! ### The effect of a completed instruction -/

/-- The condition under which an instruction raises no fault (R160, R162, R225, R240, R241, R254, R256, R257). -/
def RaisesNoFault (s : State) : Instr → Prop
  | .ret => s.sp ≠ 0
  | .call _ => s.sp ≠ 128
  | .drw _ _ n => s.spriteLast n ≤ 4095
  | .skp x | .sknp x => (s.reg x).toNat ≤ 15
  | .ldB _ => s.i.toNat + 2 ≤ 4095
  | .stRegs x | .ldRegs x => s.i.toNat + x.val ≤ 4095
  | _ => True

/-- The state after an instruction that raises no fault. A transfer of a list of registers or bytes is written as the update of the
register file or of memory alone, so that every other field is that of `s.advance` by definition. -/
def effectOf (s : State) : Instr → State
  | .scd n => s.advance.setDisp (shiftDown s.mode.cols n.toNat s.disp)
  | .cls => (s.advance.setDisp (List.replicate (s.mode.cols * s.mode.rows) false)).redraw
  | .ret => s.advance.pop
  | .scr => s.advance.setDisp (shiftRight s.mode.cols s.disp)
  | .scl => s.advance.setDisp (shiftLeft s.mode.cols s.disp)
  | .low => s.advance.switchMode .low
  | .high => s.advance.switchMode .high
  | .jp nnn => s.advance.setPc (zextAddr nnn)
  | .call nnn => (s.advance.push s.advance.pc).setPc (zextAddr nnn)
  | .seImm x kk => s.advance.skipIf (s.reg x == kk)
  | .sneImm x kk => s.advance.skipIf (s.reg x != kk)
  | .seReg x y => s.advance.skipIf (s.reg x == s.reg y)
  | .sneReg x y => s.advance.skipIf (s.reg x != s.reg y)
  | .ldImm x kk => s.advance.setReg x kk
  | .addImm x kk => s.advance.setReg x (s.reg x + kk)
  | .orReg x y => s.advance.setReg x (s.reg x ||| s.reg y)
  | .andReg x y => s.advance.setReg x (s.reg x &&& s.reg y)
  | .xorReg x y => s.advance.setReg x (s.reg x ^^^ s.reg y)
  | .movReg x y => s.advance.setReg x (s.reg y)
  | .addReg x y => s.advance.setStatusThenReg (carryFlag (s.reg x) (s.reg y)) x (s.reg x + s.reg y)
  | .sub x y => s.advance.setStatusThenReg (greaterFlag (s.reg x) (s.reg y)) x (s.reg x - s.reg y)
  | .subn x y => s.advance.setStatusThenReg (greaterFlag (s.reg y) (s.reg x)) x (s.reg y - s.reg x)
  | .shr x y => s.advance.setStatusThenReg (lowBitFlag (s.shiftOperand x y)) x (s.shiftOperand x y >>> 1)
  | .shl x y => s.advance.setStatusThenReg (highBitFlag (s.shiftOperand x y)) x (s.shiftOperand x y <<< 1)
  | .ldI nnn => s.advance.setI (zextAddr nnn)
  | .jpV0 nnn => s.advance.setPc (zextAddr nnn + zextByte (s.reg 0))
  | .rnd x kk => s.advance.tookRnd.setReg x (s.rnd &&& kk)
  | .drw x y n => s.drawSprite x y n
  | .skp x => s.advance.skipIf (keyDown s.keys (s.reg x).toNat == true)
  | .sknp x => s.advance.skipIf (keyDown s.keys (s.reg x).toNat == false)
  | .ldVxDt x => s.advance.setReg x (s.dt.setWidth 8)
  | .ldVxK x =>
    { s.setRegIf (highestKey s.keys).isSome x (BitVec.ofNat 8 ((highestKey s.keys).getD 0)) with
      pc := if highestKey s.keys = none then s.pc else s.pc + 2
      waiting := s.waiting || (highestKey s.keys).isNone }
  | .ldDtVx x => s.advance.setDt (zextByte (s.reg x))
  | .ldStVx x => s.advance.setSt (zextByte (s.reg x))
  | .addI x =>
    (s.advance.setRegIf (decide (s.i.toNat + (s.reg x).toNat ≥ 4096)) regF 1).setI
      (BitVec.ofNat 16 ((s.i.toNat + (s.reg x).toNat) % 4096))
  | .ldF x => s.advance.setI (s.glyphAddress x)
  | .ldB x => { s.advance with mem := (s.advance.putBytes s.i.toNat (bcdDigits (s.reg x))).mem }
  | .stRegs x => { s.advance with mem := (s.advance.putBytes s.i.toNat ((regsUpTo x).map s.reg)).mem }
  | .ldRegs x =>
    { s.advance with v := ((regsUpTo x).foldl (fun t r => t.setReg r (s.byteAt (s.i.toNat + r.val))) s.advance).v }

/-- The wait-for-key in one form: repeated with no key latched, done with the highest key otherwise (R242). -/
theorem execLdVxK_effect (x : Reg) (s : State) : execLdVxK x s = .next (effectOf s (.ldVxK x)) := by
  unfold execLdVxK effectOf
  cases highestKey s.keys with
  | none => simp [State.rewind, State.advance, State.setRegIf]
  | some k => simp [State.setReg, State.advance, State.setRegIf]

/-- The range check of an instruction either fails as a fault or lets the effect through. -/
theorem State.ifInRange_cases (s : State) (ins : Instr) (last : Nat) (u : State) :
    (∃ kind info, s.ifInRange ins last u = s.raise kind info (some (encode ins))) ∨
      (last ≤ 4095 ∧ s.ifInRange ins last u = u) := by
  unfold State.ifInRange
  split
  · exact .inr ⟨by assumption, rfl⟩
  · exact .inl ⟨_, _, rfl⟩

/-- A key skip either is a fault or skips, with an index up to 15 (R240, R241). -/
theorem State.keySkip_cases (s : State) (ins : Instr) (x : Reg) (down : Bool) :
    (∃ kind info, s.keySkip ins x down = s.raise kind info (some (encode ins))) ∨
      ((s.reg x).toNat ≤ 15 ∧ s.keySkip ins x down = s.advance.skipIf (keyDown s.keys (s.reg x).toNat == down)) := by
  unfold State.keySkip
  split
  · exact .inl ⟨_, _, rfl⟩
  · exact .inr ⟨by omega, rfl⟩

/-- An executed instruction raised a fault, or completed with its effect. -/
theorem exec_next_effect {ins : Instr} {s t : State} (h : exec ins s = .next t) :
    (∃ kind info, t = s.raise kind info (some (encode ins))) ∨ (RaisesNoFault s ins ∧ t = effectOf s ins) := by
  cases ins with
  | ret =>
    obtain rfl := Host.Outcome.next.inj h
    split
    · exact .inl ⟨_, _, rfl⟩
    · exact .inr ⟨by assumption, rfl⟩
  | call nnn =>
    obtain rfl := Host.Outcome.next.inj h
    split
    · exact .inl ⟨_, _, rfl⟩
    · exact .inr ⟨by assumption, rfl⟩
  | skp x =>
    obtain rfl := Host.Outcome.next.inj h
    exact s.keySkip_cases _ x true
  | sknp x =>
    obtain rfl := Host.Outcome.next.inj h
    exact s.keySkip_cases _ x false
  | ldVxK x =>
    obtain rfl := Host.Outcome.next.inj ((execLdVxK_effect x s).symm.trans h)
    exact .inr ⟨trivial, rfl⟩
  | drw x y n =>
    obtain rfl := Host.Outcome.next.inj h
    exact s.ifInRange_cases ..
  | ldB x =>
    obtain rfl := Host.Outcome.next.inj h
    exact s.ifInRange_cases ..
  | stRegs x =>
    obtain rfl := Host.Outcome.next.inj h
    rw [State.putBytes_eq]
    exact s.ifInRange_cases ..
  | ldRegs x =>
    obtain rfl := Host.Outcome.next.inj h
    rw [State.foldl_setReg_eq]
    exact s.ifInRange_cases ..
  | _ => exact .inr ⟨trivial, (Host.Outcome.next.inj h).symm⟩

/-! ### Which instructions change a piece of state -/

theorem effectOf_completed (s : State) (ins : Instr) : Completed s (effectOf s ins) := by
  cases ins <;> exact ⟨rfl, rfl, rfl, rfl, rfl, rfl⟩

theorem effectOf_sp (s : State) (ins : Instr) :
    (effectOf s ins).sp = s.sp ∨ ins = .ret ∨ ∃ nnn, ins = .call nnn := by
  cases ins with
  | ret => simp
  | call nnn => simp
  | _ => exact .inl rfl

theorem effectOf_stack (s : State) (ins : Instr) :
    (effectOf s ins).stack = s.stack ∨ ∃ nnn, ins = .call nnn := by
  cases ins with
  | call nnn => simp
  | _ => exact .inl rfl

theorem effectOf_i (s : State) (ins : Instr) :
    (effectOf s ins).i = s.i ∨ (∃ nnn, ins = .ldI nnn) ∨ (∃ x, ins = .addI x) ∨ ∃ x, ins = .ldF x := by
  cases ins with
  | ldI nnn => simp
  | addI x => simp
  | ldF x => simp
  | _ => exact .inl rfl

theorem effectOf_dt (s : State) (ins : Instr) : (effectOf s ins).dt = s.dt ∨ ∃ x, ins = .ldDtVx x := by
  cases ins with
  | ldDtVx x => simp
  | _ => exact .inl rfl

theorem effectOf_st (s : State) (ins : Instr) : (effectOf s ins).st = s.st ∨ ∃ x, ins = .ldStVx x := by
  cases ins with
  | ldStVx x => simp
  | _ => exact .inl rfl

theorem effectOf_mode (s : State) (ins : Instr) : (effectOf s ins).mode = s.mode ∨ ins = .low ∨ ins = .high := by
  cases ins with
  | low => simp
  | high => simp
  | _ => exact .inl rfl

theorem effectOf_disp (s : State) (ins : Instr) :
    (effectOf s ins).disp = s.disp ∨ ins = .cls ∨ ins = .low ∨ ins = .high ∨ (∃ n, ins = .scd n) ∨ ins = .scr ∨ ins = .scl
      ∨ ∃ x y n, ins = .drw x y n := by
  cases ins with
  | cls => simp
  | low => simp
  | high => simp
  | scd n => simp
  | scr => simp
  | scl => simp
  | drw x y n => simp
  | _ => exact .inl rfl

theorem effectOf_mem (s : State) (ins : Instr) :
    (effectOf s ins).mem = s.mem ∨ (∃ x, ins = .ldB x) ∨ ∃ x, ins = .stRegs x := by
  cases ins with
  | ldB x => simp
  | stRegs x => simp
  | _ => exact .inl rfl

/-- Settles O51: a fault changes none of these pieces, and a completed instruction those of the lemmas above. -/
theorem specialStateWriters : Obligations.SpecialStateWriters := by
  intro ins s t h
  obtain ⟨kind, info, rfl⟩ | ⟨-, rfl⟩ := exec_next_effect h
  · simp
  · exact ⟨(effectOf_sp s ins).resolve_left, (effectOf_stack s ins).resolve_left, (effectOf_i s ins).resolve_left,
      (effectOf_dt s ins).resolve_left, (effectOf_st s ins).resolve_left, (effectOf_mode s ins).resolve_left,
      (effectOf_disp s ins).resolve_left, (effectOf_mem s ins).resolve_left, (effectOf_completed s ins).keys,
      (effectOf_completed s ins).cfg⟩

/-! ### The general registers -/

/-- A status write and a result write leave every other register alone. -/
theorem State.reg_setStatusThenReg_of_notMem (s : State) (f : Byte) {x r : Reg} (b : Byte) (hr : r ∉ [15, x]) :
    (s.setStatusThenReg f x b).reg r = s.reg r := by
  obtain ⟨hF, hx⟩ := not_or.1 (List.mem_pair.not.1 hr)
  rw [State.reg_setStatusThenReg, if_neg hx]
  exact if_neg hF

theorem State.reg_setRegIf_ne (s : State) (c : Bool) {q r : Reg} (b : Byte) (h : r ≠ q) : (s.setRegIf c q b).reg r = s.reg r := by
  simp [State.reg_setRegIf, h]

theorem effectOf_reg (s : State) (ins : Instr) {r : Reg} (hr : r ∉ regsWritten ins) : (effectOf s ins).reg r = s.reg r := by
  cases ins with
  | ldImm x _ | addImm x _ | orReg x _ | andReg x _ | xorReg x _ | movReg x _ | rnd x _ | ldVxDt x =>
    exact State.reg_setReg_ne _ _ (List.ne_of_not_mem_cons hr)
  | ldVxK x => exact State.reg_setRegIf_ne s _ _ (List.ne_of_not_mem_cons hr)
  | addReg x _ | sub x _ | subn x _ | shr x _ | shl x _ => exact State.reg_setStatusThenReg_of_notMem _ _ _ hr
  | drw x y n =>
    have hF : r ≠ regF := List.ne_of_not_mem_cons hr
    exact (State.reg_setRegIf_ne _ _ _ hF).trans (State.reg_setRegIf_ne s.advance _ _ hF)
  | addI x => exact State.reg_setRegIf_ne s.advance _ _ (List.ne_of_not_mem_cons hr)
  | ldRegs x => exact (State.reg_foldl_setReg s.advance _ _ r).trans (if_neg hr)
  | _ => rfl

/-- Settles O52: a fault writes no register, a completed instruction only those listed. -/
theorem registerWriters : Obligations.RegisterWriters := by
  intro ins s t r h hr
  obtain ⟨kind, info, rfl⟩ | ⟨-, rfl⟩ := exec_next_effect h
  · rfl
  · exact effectOf_reg s ins hr

/-! ### The program counter -/

theorem toNat_zextAddr (nnn : Addr) : (zextAddr nnn).toNat = nnn.toNat := by
  simp [zextAddr]; omega

theorem toNat_zextByte (b : Byte) : (zextByte b).toNat = b.toNat := by
  simp [zextByte]; omega

/-- The sum of an address field and a byte does not wrap (R168). -/
theorem toNat_zextAddr_add_zextByte (nnn : Addr) (b : Byte) : (zextAddr nnn + zextByte b).toNat = nnn.toNat + b.toNat := by
  rw [BitVec.toNat_add, toNat_zextAddr, toNat_zextByte]
  omega

/-- PC after a skip is one of two addresses (R167). -/
theorem State.advance_skipIf_pc_cases (s : State) (c : Bool) :
    (s.advance.skipIf c).pc = s.pc + 2 ∨ (s.advance.skipIf c).pc = s.pc + 4 := by
  rw [State.advance_skipIf_pc]
  cases c <;> simp

/-- With no highest key no key is latched (R242). -/
theorem eq_zero_of_highestKey_eq_none {keys : BitVec 16} (h : highestKey keys = none) : keys = 0 := by
  simp only [highestKey, List.find?_eq_none] at h
  apply BitVec.eq_of_getLsbD_eq
  intro k hk
  have hmem : k ∈ [15, 14, 13, 12, 11, 10, 9, 8, 7, 6, 5, 4, 3, 2, 1, 0] := by
    interval_cases k <;> decide
  simpa [keyDown] using h k hmem

/-- Settles O53: a completed instruction raised no fault, so PC is that of its effect. -/
theorem pcChangesAsListed : Obligations.PcChangesAsListed := by
  intro ins s t _ h ht
  obtain ⟨kind, info, rfl⟩ | ⟨-, rfl⟩ := exec_next_effect h
  · simp at ht
  · cases ins with
    | jp nnn | call nnn => exact toNat_zextAddr nnn
    | jpV0 nnn => exact toNat_zextAddr_add_zextByte nnn _
    | seImm _ _ | sneImm _ _ | seReg _ _ | sneReg _ _ | skp _ | sknp _ => exact s.advance_skipIf_pc_cases _
    | ldVxK x =>
      by_cases hk : highestKey s.keys = none
      · exact .inr ⟨if_pos hk, eq_zero_of_highestKey_eq_none hk⟩
      · exact .inl (if_neg hk)
    | _ => rfl

/-! ### The key latch -/

/-- The state with other keys latched. -/
def State.withKeys (s : State) (k : BitVec 16) : State := { s with keys := k }

theorem State.withKeys_ifInRange (s : State) (ins : Instr) (last : Nat) (u : State) (k : BitVec 16) :
    (s.withKeys k).ifInRange ins last (u.withKeys k) = (s.ifInRange ins last u).withKeys k := by
  unfold State.ifInRange
  split <;> rfl

theorem State.withKeys_putBytes (s : State) (a : Nat) (bs : List Byte) (k : BitVec 16) :
    (s.withKeys k).putBytes a bs = (s.putBytes a bs).withKeys k := by
  induction bs generalizing s a with
  | nil => rfl
  | cons b bs ih => exact ih (s.putByte a b) (a + 1)

theorem State.withKeys_foldl_setReg (s : State) (f : Reg → Byte) (l : List Reg) (k : BitVec 16) :
    l.foldl (fun t r => t.setReg r (f r)) (s.withKeys k) = (l.foldl (fun t r => t.setReg r (f r)) s).withKeys k := by
  induction l generalizing s with
  | nil => rfl
  | cons r l ih => exact ih (s.setReg r (f r))

/-- Settles O54: the meaning of every instruction but the three commutes with replacing the latch. -/
theorem keysSeenOnlyByKeyInstructions : Obligations.KeysSeenOnlyByKeyInstructions := by
  intro ins s t k hkey h
  change exec ins (s.withKeys k) = .next (t.withKeys k)
  cases ins with
  | skp x => exact absurd rfl (hkey x).1
  | sknp x => exact absurd rfl (hkey x).2.1
  | ldVxK x => exact absurd rfl (hkey x).2.2
  | ret | call nnn =>
    obtain rfl := Host.Outcome.next.inj h
    rw [apply_ite (State.withKeys · k)]
    rfl
  | drw x y n =>
    obtain rfl := Host.Outcome.next.inj h
    exact congrArg Host.Outcome.next (s.withKeys_ifInRange _ _ (s.drawSprite x y n) k)
  | ldB x | stRegs x =>
    obtain rfl := Host.Outcome.next.inj h
    refine congrArg Host.Outcome.next (.trans ?_ (s.withKeys_ifInRange _ _ _ k))
    rw [← State.withKeys_putBytes]
    rfl
  | ldRegs x =>
    obtain rfl := Host.Outcome.next.inj h
    refine congrArg Host.Outcome.next (.trans ?_ (s.withKeys_ifInRange _ _ _ k))
    rw [← State.withKeys_foldl_setReg]
    rfl
  | _ =>
    obtain rfl := Host.Outcome.next.inj h
    rfl

end Sys2Proof.Machine
end

section
/-! Reset, the enabled steps, and the invariant of the machine: it holds after reset, and each part of a step keeps it. -/

namespace Sys2Proof.Machine

/-- The parameters R5 allows, as propositions. -/
theorem Config.wf_iff (c : Config) :
    c.wf = true ↔ c.fontBase + 80 ≤ 0x200 ∧ c.fontGlyphs.length = 80 ∧ c.initMem.length ≤ 4096 ∧ c.tickBatch ≠ some 0 := by
  simp [Config.wf, and_assoc]

/-! ### Reset -/

theorem State.resetWith_reg (c : Config) (r : Reg) : (State.resetWith c).reg r = 0 := by
  simp [State.reg, State.resetWith_v]

theorem State.getElem_resetWith_stack (c : Config) (k : Nat) (h : k < 128) : (State.resetWith c).stack[k] = 0 := by
  simp [State.resetWith_stack]

theorem State.length_resetWith_disp (c : Config) : (State.resetWith c).disp.length = 2048 := by
  rw [State.resetWith_disp, List.length_replicate]

/-- Right after reset memory reads as its reset content (R311). -/
theorem State.resetWith_byteAt (c : Config) (a : Nat) : (State.resetWith c).byteAt a = Memory.background c a := rfl

/-- The reset state of a machine with allowed parameters has the invariant (R38). -/
theorem State.resetWith_inv {c : Config} (hc : c.wf = true) : (State.resetWith c).Inv where
  cfgWf := hc
  memWf := Memory.wf_nil c
  indexInRange := by simp
  pcInRange := by simp
  stackInRange k h := by simp [State.getElem_resetWith_stack]
  dtInRange := by simp
  stInRange := by simp
  stAbsent _ := rfl
  dispSize := State.length_resetWith_disp c
  faultWhenHalted := by simp
  batchInRange n hn := by
    have hpos : n ≠ 0 := fun h0 => ((Config.wf_iff c).1 hc).2.2.2 (h0 ▸ hn)
    exact Nat.pos_of_ne_zero hpos
  batchAbsent _ := rfl

/-- Settles O57: the default parameters are allowed. -/
theorem resetMeetsTheInvariant : Obligations.ResetMeetsTheInvariant := State.resetWith_inv (by decide)

/-- Bytes stored below 4096 keep the invariant. -/
theorem State.Inv.putBytes {s : State} (hs : s.Inv) {a : Nat} {bs : List Byte} (ha : a + bs.length ≤ 4096) :
    (s.putBytes a bs).Inv := by
  have hmem := State.wf_putBytes hs.memWf ha
  rw [State.putBytes_eq]
  exact { hs with memWf := hmem }

/-- What the loader gives: a state exactly for an image of at most 3584 bytes (R312). -/
theorem State.boot_eq_some_iff {c : Config} {image : List Byte} {s : State} :
    State.boot c image = some s ↔ image.length ≤ 3584 ∧ (State.resetWith c).putBytes 0x200 image = s := by
  unfold State.boot State.loadImage
  split <;> simp_all

theorem State.boot_eq_none {c : Config} {image : List Byte} (h : 3584 < image.length) : State.boot c image = none :=
  if_neg (Nat.not_le.2 h)

/-- Settles O58: the image is stored in the reset state, below 4096. -/
theorem bootMeetsTheInvariant : Obligations.BootMeetsTheInvariant := by
  intro c image s hc h
  obtain ⟨hlen, rfl⟩ := State.boot_eq_some_iff.1 h
  exact (State.resetWith_inv hc).putBytes (by omega)

/-- Memory after reset with an accepted image: the image, over the reset content (R311). -/
theorem State.byteAt_resetWith_putBytes (c : Config) {image : List Byte} (hlen : image.length ≤ 3584) (a : Nat) :
    ((State.resetWith c).putBytes 0x200 image).byteAt a =
      if 0x200 ≤ a ∧ a < 0x200 + image.length then image.getD (a - 0x200) 0 else Memory.background c a := by
  split
  · rename_i ha
    obtain ⟨k, rfl⟩ := Nat.exists_eq_add_of_le ha.1
    have hk : k < image.length := by omega
    rw [State.byteAt_putBytes_inside (Memory.wf_nil c) (by omega) hk, Nat.add_sub_cancel_left, List.getD_eq_getElem _ _ hk]
  · rw [State.byteAt_putBytes_outside _ (by omega), State.resetWith_byteAt]

/-- Settles O56: storing the image changes memory alone, and the rest is the reset state. -/
theorem bootGivesTheResetState : Obligations.BootGivesTheResetState := by
  intro c image _
  refine ⟨State.boot_eq_none, fun hlen => ⟨_, State.boot_eq_some_iff.2 ⟨hlen, rfl⟩, ?_⟩⟩
  have hstack (k : Nat) (h : k < 128) : ((State.resetWith c).putBytes 0x200 image).stack[k] = 0 := by
    simp [State.getElem_resetWith_stack]
  have hdisp : ((State.resetWith c).putBytes 0x200 image).disp = List.replicate 2048 false := by
    rw [State.putBytes_disp, State.resetWith_disp]
  have hcells : ∀ b ∈ ((State.resetWith c).putBytes 0x200 image).disp, b = false := by
    intro b hb
    rw [hdisp] at hb
    exact List.eq_of_mem_replicate hb
  have hlength : ((State.resetWith c).putBytes 0x200 image).disp.length = 2048 := by
    rw [hdisp, List.length_replicate]
  refine ⟨by simp, fun r => by rw [State.putBytes_reg, State.resetWith_reg], by simp, by simp, by simp, hstack, by simp, by simp,
    by simp, by simp, hlength, hcells, by simp, by simp, by simp, fun a _ => State.byteAt_resetWith_putBytes c hlen a⟩

/-! ### A step is enabled exactly when the core is running -/

theorem step_of_halted {s : State} (h : s.run = .halted) : step s = .fault .halted := by
  simp [step, h]

/-- Settles O43: `step_answers` one way, `step_cases` the other. -/
theorem stepEnabledExactlyWhenRunning : Obligations.StepEnabledExactlyWhenRunning := by
  intro s
  exact ⟨⟨fun ⟨_, h⟩ => (step_cases h).1, step_answers⟩, step_of_halted⟩

/-! ### The parts of a step keep the invariant -/

/-- The ticks due, the key refresh and the outputs ended keep the invariant (R127). -/
theorem State.Inv.beginStep {s : State} (hs : s.Inv) : s.beginStep.Inv :=
  { hs with
    dtInRange := by
      have := hs.dtInRange
      rw [State.beginStep_dt, State.ticks_dt_toNat]
      omega
    stInRange := by
      have := hs.stInRange
      rw [State.beginStep_st, State.ticks_st_toNat]
      split <;> omega
    stAbsent := fun h => by
      rw [State.beginStep_cfg] at h
      rw [State.beginStep_st, State.ticks_st, h]
      exact hs.stAbsent h }

/-- Taking a fault keeps the invariant (R282). -/
theorem State.Inv.raise {s : State} (hs : s.Inv) (kind : FaultKind) (info : Nat) (word : Option Word) :
    (s.raise kind info word).Inv :=
  { hs with faultWhenHalted := by simp }

/-- A tick keeps the invariant (R127). -/
theorem State.Inv.tick {s : State} (hs : s.Inv) : s.tick.Inv :=
  { hs with
    dtInRange := by
      have := hs.dtInRange
      rw [State.tick_dt, tickDown_toNat]
      omega
    stInRange := by
      have := hs.stInRange
      rw [State.tick_st]
      split
      · rw [tickDown_toNat]; omega
      · exact this
    stAbsent := fun h => by
      rw [State.tick_cfg] at h
      rw [State.tick_st, h]
      exact hs.stAbsent h }

/-- A batch count in the range of TICK_BATCH = n keeps the invariant (R36). -/
theorem State.Inv.setBatchCnt {s : State} (hs : s.Inv) {n m : Nat} (hn : s.cfg.tickBatch = some n) (hm : m < n) :
    State.Inv { s with batchCnt := m } :=
  { hs with
    batchInRange := fun k hk => by
      obtain rfl : n = k := Option.some.inj (hn.symm.trans hk)
      exact hm
    batchAbsent := fun h => absurd (hn.symm.trans h) (by simp) }

/-- Counting the completed step keeps the invariant (R127, R36). -/
theorem State.Inv.finishStep {s : State} (hs : s.Inv) : s.finishStep.Inv := by
  unfold State.finishStep
  split
  · rename_i n _ hn
    have hlt := hs.batchInRange n hn
    split
    · exact hs.tick.setBatchCnt hn (by omega)
    · exact hs.setBatchCnt hn (by omega)
  · exact hs
  · exact hs

/-! ### A completed instruction keeps the invariant -/

theorem effectOf_mem_wf {s : State} {ins : Instr} (hs : s.Inv) (hc : RaisesNoFault s ins) :
    Memory.wf s.cfg (effectOf s ins).mem := by
  obtain h | ⟨x, rfl⟩ | ⟨x, rfl⟩ := effectOf_mem s ins
  · rw [h]
    exact hs.memWf
  · have hlast : s.i.toNat + 2 ≤ 4095 := hc
    exact State.wf_putBytes (s := s.advance) hs.memWf (by simp only [bcdDigits, List.length_cons, List.length_nil]; omega)
  · have hlast : s.i.toNat + x.val ≤ 4095 := hc
    exact State.wf_putBytes (s := s.advance) hs.memWf (by rw [List.length_map, length_regsUpTo]; omega)

/-- The largest address a glyph has is below 4096 (R253). -/
theorem State.glyphAddress_le {s : State} (hc : s.cfg.wf = true) (x : Reg) : (s.glyphAddress x).toNat ≤ 4095 := by
  have hbase := ((Config.wf_iff _).1 hc).1
  have hx := (s.reg x).isLt
  rw [State.glyphAddress, BitVec.toNat_ofNat]
  exact (Nat.mod_le _ _).trans (by omega)

theorem effectOf_i_le {s : State} (ins : Instr) (hs : s.Inv) : (effectOf s ins).i.toNat ≤ 4095 := by
  obtain h | ⟨nnn, rfl⟩ | ⟨x, rfl⟩ | ⟨x, rfl⟩ := effectOf_i s ins
  · rw [h]
    exact hs.indexInRange
  · exact (toNat_zextAddr nnn).trans_le (by omega)
  · change (BitVec.ofNat 16 ((s.i.toNat + (s.reg x).toNat) % 4096)).toNat ≤ 4095
    rw [BitVec.toNat_ofNat]
    omega
  · exact State.glyphAddress_le hs.cfgWf x

/-- Only a call saves a value, the address after it (R162). -/
theorem effectOf_stack_le {s : State} (ins : Instr) (hs : s.Inv) (hpc : s.pc.toNat ≤ 4094) (k : Nat) (hk : k < 128) :
    (effectOf s ins).stack[k].toNat ≤ 0x1000 := by
  obtain h | ⟨nnn, rfl⟩ := effectOf_stack s ins
  · simp only [h]
    exact hs.stackInRange k hk
  · change (s.stack.setIfInBounds s.sp.val (s.pc + 2))[k].toNat ≤ 0x1000
    rw [Vector.getElem_setIfInBounds]
    split
    · bv_omega
    · exact hs.stackInRange k hk

theorem effectOf_dt_le {s : State} (ins : Instr) (hs : s.Inv) : (effectOf s ins).dt.toNat ≤ 255 := by
  obtain h | ⟨x, rfl⟩ := effectOf_dt s ins
  · rw [h]
    exact hs.dtInRange
  · exact (toNat_zextByte _).trans_le (Nat.le_of_lt_succ (s.reg x).isLt)

theorem effectOf_st_le {s : State} (ins : Instr) (hs : s.Inv) : (effectOf s ins).st.toNat ≤ 255 := by
  obtain h | ⟨x, rfl⟩ := effectOf_st s ins
  · rw [h]
    exact hs.stInRange
  · exact (toNat_zextByte _).trans_le (Nat.le_of_lt_succ (s.reg x).isLt)

/-- The instruction that sets ST is there only with the sound timer (R258). -/
theorem effectOf_st_absent {s : State} {ins : Instr} (hs : s.Inv) (hw : ins.wellFormed s.cfg = true)
    (h : s.cfg.hasSoundTimer = false) : (effectOf s ins).st = 0 := by
  obtain hst | ⟨x, rfl⟩ := effectOf_st s ins
  · rw [hst]
    exact hs.stAbsent h
  · exact absurd (hw.symm.trans h) (by decide)

theorem effectOf_disp_length {s : State} (ins : Instr) (hs : s.Inv) :
    (effectOf s ins).disp.length = (effectOf s ins).mode.cols * (effectOf s ins).mode.rows := by
  cases ins with
  | cls | low | high => exact List.length_replicate
  | scd n => exact (length_shiftDown ..).trans hs.dispSize
  | scr => exact (length_shiftRight ..).trans hs.dispSize
  | scl => exact (length_shiftLeft ..).trans hs.dispSize
  | drw x y n => exact (length_spriteDrawn ..).trans hs.dispSize
  | _ => exact hs.dispSize

/-- From a fetched instruction PC reaches at most the largest target of a jump with offset, 0x10FE (R26). -/
theorem pc_le_of_completed {ins : Instr} {s t : State} (hs : s.Inv) (hpc : s.pc.toNat ≤ 4094) (hrun : s.run = .running)
    (h : exec ins s = .next t) (ht : t.run = .running) : t.pc.toNat ≤ 0x10FE := by
  have hlist := pcChangesAsListed ins s t hrun h ht
  cases ins with
  | jp nnn | call nnn =>
    have : t.pc.toNat = nnn.toNat := hlist
    omega
  | jpV0 nnn =>
    have : t.pc.toNat = nnn.toNat + (s.reg 0).toNat := hlist
    omega
  | ret =>
    have hpop : t.pc = s.stack[s.sp.val - 1]'(by omega) := hlist
    rw [hpop]
    exact (hs.stackInRange _ _).trans (by decide)
  | seImm _ _ | sneImm _ _ | seReg _ _ | sneReg _ _ | skp _ | sknp _ =>
    have : t.pc = s.pc + 2 ∨ t.pc = s.pc + 4 := hlist
    bv_omega
  | ldVxK x =>
    obtain hdone | ⟨hwait, -⟩ : t.pc = s.pc + 2 ∨ (t.pc = s.pc ∧ s.keys = 0) := hlist
    · bv_omega
    · rw [hwait]
      omega
  | _ =>
    have : t.pc = s.pc + 2 := hlist
    bv_omega

/-- An executed instruction that the machine has, fetched inside memory, keeps the invariant. -/
theorem State.Inv.of_exec {ins : Instr} {s t : State} (hs : s.Inv) (hrun : s.run = .running) (hpc : s.pc.toNat ≤ 4094)
    (hw : ins.wellFormed s.cfg = true) (h : exec ins s = .next t) : t.Inv := by
  obtain ⟨kind, info, rfl⟩ | ⟨hc, rfl⟩ := exec_next_effect h
  · exact hs.raise kind info _
  · have same := effectOf_completed s ins
    exact {
      cfgWf := same.cfg ▸ hs.cfgWf
      memWf := same.cfg ▸ effectOf_mem_wf hs hc
      indexInRange := effectOf_i_le ins hs
      pcInRange := pc_le_of_completed hs hpc hrun h (same.run.trans hrun)
      stackInRange := effectOf_stack_le ins hs hpc
      dtInRange := effectOf_dt_le ins hs
      stInRange := effectOf_st_le ins hs
      stAbsent := same.cfg ▸ effectOf_st_absent hs hw
      dispSize := effectOf_disp_length ins hs
      faultWhenHalted := by rw [same.run, same.fault]; exact hs.faultWhenHalted
      batchInRange := by rw [same.cfg, same.batchCnt]; exact hs.batchInRange
      batchAbsent := by rw [same.cfg, same.batchCnt]; exact hs.batchAbsent }

/-- A word is fetched only from inside memory (R123). -/
theorem State.pc_le_of_fetch {s : State} {w : Word} (h : s.fetch = some w) : s.pc.toNat ≤ 4094 := by
  have := s.fetch_isSome_iff.1 (by rw [h]; rfl)
  omega

/-- Settles O59: the parts of a step keep the invariant one after the other. -/
theorem stepKeepsTheInvariant : Obligations.StepKeepsTheInvariant := by
  intro s t hs h
  obtain ⟨hrun, ⟨-, rfl⟩ | ⟨w, hw, ⟨-, rfl⟩ | ⟨ins, u, hd, hu, rfl⟩⟩⟩ := step_cases h
  · exact hs.beginStep.raise ..
  · exact hs.beginStep.raise ..
  · have hwf : ins.wellFormed s.cfg = true := (dispatch_instr_iff.1 hd).2
    exact (hs.beginStep.of_exec hrun (State.pc_le_of_fetch hw) hwf hu).finishStep

end Sys2Proof.Machine
end

section
/-! The memory family (20_memory R68, R70): what a store-registers and a load-registers in range answer, and that a byte a
store-registers wrote is seen by a later load and by a later fetch. -/

namespace Sys2Proof.Machine

/-- In range, store-registers answers the advanced state with registers 0 to X stored from I on (R256). -/
theorem exec_stRegs_of_le {s : State} {x : Reg} (h : s.i.toNat + x.val ≤ 4095) :
    exec (.stRegs x) s = .next (s.advance.putBytes s.i.toNat ((regsUpTo x).map s.reg)) :=
  congrArg Host.Outcome.next (State.ifInRange_le _ h)

/-- In range, load-registers answers the advanced state with registers 0 to X loaded from I on (R257). -/
theorem exec_ldRegs_of_le {s : State} {x : Reg} (h : s.i.toNat + x.val ≤ 4095) :
    exec (.ldRegs x) s =
      .next ((regsUpTo x).foldl (fun t r => t.setReg r (s.byteAt (s.i.toNat + r.val))) s.advance) :=
  congrArg Host.Outcome.next (State.ifInRange_le _ h)

/-- Store-registers leaves I alone, in range or not (R255). -/
theorem i_of_exec_stRegs {s t : State} {x : Reg} (h : exec (.stRegs x) s = .next t) : t.i = s.i := by
  obtain ⟨kind, info, rfl⟩ | ⟨-, rfl⟩ := exec_next_effect h <;> rfl

/-- After a store-registers in range, the byte at I + r is register r, for every r up to X (R256). -/
theorem byteAt_of_exec_stRegs {s t : State} {x r : Reg} (hwf : Memory.wf s.cfg s.mem) (hx : s.i.toNat + x.val ≤ 4095)
    (h : exec (.stRegs x) s = .next t) (hr : r.val ≤ x.val) : t.byteAt (s.i.toNat + r.val) = s.reg r := by
  obtain rfl := Host.Outcome.next.inj ((exec_stRegs_of_le hx).symm.trans h)
  have hlen : ((regsUpTo x).map s.reg).length = x.val + 1 := by rw [List.length_map, length_regsUpTo]
  rw [State.byteAt_putBytes_inside (s := s.advance) hwf (by omega) (by omega), List.getElem_map]
  exact congrArg s.reg (Fin.ext (getElem_regsUpTo x r.val _))

/-- After a load-registers in range, register r is the byte at I + r, for every r up to X (R257). -/
theorem reg_of_exec_ldRegs {s t : State} {x r : Reg} (hx : s.i.toNat + x.val ≤ 4095) (h : exec (.ldRegs x) s = .next t)
    (hr : r.val ≤ x.val) : t.reg r = s.byteAt (s.i.toNat + r.val) := by
  obtain rfl := Host.Outcome.next.inj ((exec_ldRegs_of_le hx).symm.trans h)
  exact (State.reg_foldl_setReg s.advance _ _ r).trans (if_pos (mem_regsUpTo.2 hr))

/-- Settles O39: the load reads the stored bytes, since the store kept I and the register file between is no part of memory. -/
theorem loadAfterStoreRestoresRegisters : Obligations.LoadAfterStoreRestoresRegisters := by
  intro s t u x v hwf hx hst hld r hr
  have hi : t.i = s.i := i_of_exec_stRegs hst
  have hxt : t.i.toNat + x.val ≤ 4095 := by rw [hi]; exact hx
  calc u.reg r
    _ = t.byteAt (t.i.toNat + r.val) := reg_of_exec_ldRegs (s := { t with v := v }) hxt hld hr
    _ = t.byteAt (s.i.toNat + r.val) := by rw [hi]
    _ = s.reg r := byteAt_of_exec_stRegs hwf hx hst hr

/-- Settles O40: the two bytes fetched are those of registers r and r + 1. -/
theorem fetchSeesStoredBytes : Obligations.FetchSeesStoredBytes := by
  intro s t x r q pc hwf hx hst hq hqx hpc
  have hhigh : t.byteAt pc.toNat = s.reg r := by
    rw [hpc]
    exact byteAt_of_exec_stRegs hwf hx hst (by omega)
  have hlow : t.byteAt (pc.toNat + 1) = s.reg q := by
    rw [hpc, Nat.add_assoc, ← hq]
    exact byteAt_of_exec_stRegs hwf hx hst hqx
  have hle : (t.setPc pc).pc.toNat + 1 ≤ 4095 := by
    rw [State.setPc_pc]
    omega
  rw [State.fetch, if_pos hle, State.setPc_pc, State.setPc_byteAt, State.setPc_byteAt, hhigh, hlow]

end Sys2Proof.Machine
end

section
/-! The encoding family (30_encoding R91 to R97): decode and encode are inverse to each other, and decode agrees with the match and
mask rows of the opcode map. The link to the rows is `Instr.exists_decode_of_row`: a word that matches an instruction's row decodes to
an instruction of that row. The rows are then disjoint because decode is a function. -/

namespace Sys2Proof

/-! ### A word whose fixed fields are known is the encoding with its other fields -/

theorem wordA_eq_of_fields {w : Word} {op : Nibble} (h3 : (fieldN3 w).toNat = op.toNat) : wordA op (fieldNNN w) = w := by
  rw [← BitVec.eq_of_toNat_eq h3, wordA_of_fields]

theorem wordXK_eq_of_field {w : Word} {op : Nibble} (h3 : (fieldN3 w).toNat = op.toNat) :
    wordXK op (fieldX w) (fieldKK w) = w := by
  rw [← BitVec.eq_of_toNat_eq h3, wordXK_of_fields]

theorem wordXK_eq_of_fields {w : Word} {op : Nibble} {kk : Byte} (h3 : (fieldN3 w).toNat = op.toNat) (hk : fieldKK w = kk) :
    wordXK op (fieldX w) kk = w := by
  rw [← hk, wordXK_eq_of_field h3]

theorem wordXYN_eq_of_fields {w : Word} {op n : Nibble} (h3 : (fieldN3 w).toNat = op.toNat) (h0 : fieldN0 w = n) :
    wordXYN op (fieldX w) (fieldY w) n = w := by
  rw [← BitVec.eq_of_toNat_eq h3, ← h0, wordXYN_of_fields]

@[simp] theorem fieldN2_wordXYN (op : Nibble) (x y : Reg) (n : Nibble) : fieldN2 (wordXYN op x y n) = regNibble x := by
  simp [wordXYN_eq_wordXK]

/-- Scroll-down as a word of four nibbles (R93, format ZN). -/
theorem encode_scd (n : Nibble) : encode (.scd n) = wordXYN 0x0 0 0xC n := by
  revert n
  decide

/-! ### The fields of a word (R91) -/

/-- The four nibbles in order make the word. -/
theorem append_nibbles (w : Word) : fieldN3 w ++ (fieldN2 w ++ (fieldN1 w ++ fieldN0 w)) = w := by
  apply BitVec.eq_of_getLsbD_eq
  intro i hi
  simp only [fieldN3, fieldN2, fieldN1, fieldN0, BitVec.getLsbD_append, BitVec.getLsbD_extractLsb']
  interval_cases i <;> simp

/-- The two bytes in order make the word. -/
theorem wordOfBytes_highByte_lowByte (w : Word) : wordOfBytes (highByte w) (lowByte w) = w := by
  apply BitVec.eq_of_getLsbD_eq
  intro i hi
  simp only [wordOfBytes, highByte, lowByte, BitVec.getLsbD_append, BitVec.getLsbD_extractLsb']
  interval_cases i <;> simp

theorem toNat_fieldNNN (w : Word) : (fieldNNN w).toNat = w.toNat % 4096 := by simp [fieldNNN]

theorem toNat_fieldKK (w : Word) : (fieldKK w).toNat = w.toNat % 256 := by simp [fieldKK]

/-- The number of a word from its four nibbles. -/
theorem toNat_eq_nibbles (w : Word) :
    (fieldN3 w).toNat * 4096 + (fieldN2 w).toNat * 256 + (fieldN1 w).toNat * 16 + (fieldN0 w).toNat = w.toNat := by
  have h := toNat_wordXYN (fieldN3 w) (fieldX w) (fieldY w) (fieldN0 w)
  have hx : (fieldX w).val = (fieldN2 w).toNat := rfl
  have hy : (fieldY w).val = (fieldN1 w).toNat := rfl
  rw [wordXYN_of_fields, hx, hy] at h
  omega

/-- Settles O6: the nibbles by the number of a word of format XYN, the other clauses field by field. -/
theorem fieldsReassembleTheWord : Obligations.FieldsReassembleTheWord := fun w =>
  ⟨toNat_eq_nibbles w, append_nibbles w, toNat_fieldNNN w, toNat_fieldKK w, wordOfBytes_highByte_lowByte w⟩

/-! ### Decode after encode -/

/-- Settles O1, by cases on the instruction: the fields of its word are its operands and the constants its group selects on. -/
theorem decodeInvertsEncode : Obligations.DecodeInvertsEncode := by
  intro ins
  cases ins with
  | cls | ret | scr | scl | low | high => rfl
  | scd n => simp [encode_scd, decode, decodeGroup0, regNibble]
  | movReg x y | orReg x y | andReg x y | xorReg x y | addReg x y | sub x y | shr x y | subn x y | shl x y =>
    simp [encode, decode, decodeGroup8]
  | skp x | sknp x => simp [encode, decode, decodeGroupE]
  | ldVxDt x | ldVxK x | ldDtVx x | ldStVx x | addI x | ldF x | ldB x | stRegs x | ldRegs x =>
    simp [encode, decode, decodeGroupF]
  | _ => simp [encode, decode]

/-! ### Encode after decode -/

theorem encode_of_decodeGroup0 {w : Word} {ins : Instr} (h3 : (fieldN3 w).toNat = 0x0) (h : decodeGroup0 w = .instr ins) :
    encode ins = w := by
  unfold decodeGroup0 at h
  split at h
  · cases h
  · next h2 =>
    have hx : fieldX w = 0 := congrArg BitVec.toFin (not_not.1 h2)
    have hw {kk : Byte} (hk : fieldKK w = kk) : wordXK 0x0 0 kk = w := hx ▸ wordXK_eq_of_fields h3 hk
    split_ifs at h with h1 <;> cases h
    · have hy : fieldY w = 0xC := congrArg BitVec.toFin h1
      rw [encode_scd, ← hx, ← hy]
      exact wordXYN_eq_of_fields h3 rfl
    all_goals exact hw (by assumption)

theorem encode_of_decodeGroup8 {w : Word} {ins : Instr} (h3 : (fieldN3 w).toNat = 0x8) (h : decodeGroup8 w = .instr ins) :
    encode ins = w := by
  unfold decodeGroup8 at h
  split_ifs at h <;> cases h
  all_goals exact wordXYN_eq_of_fields h3 (by assumption)

theorem encode_of_decodeGroupE {w : Word} {ins : Instr} (h3 : (fieldN3 w).toNat = 0xE) (h : decodeGroupE w = .instr ins) :
    encode ins = w := by
  unfold decodeGroupE at h
  split_ifs at h <;> cases h
  all_goals exact wordXK_eq_of_fields h3 (by assumption)

theorem encode_of_decodeGroupF {w : Word} {ins : Instr} (h3 : (fieldN3 w).toNat = 0xF) (h : decodeGroupF w = .instr ins) :
    encode ins = w := by
  unfold decodeGroupF at h
  split_ifs at h <;> cases h
  all_goals exact wordXK_eq_of_fields h3 (by assumption)

/-- Settles O2, by the group of the word: the fields decode read, put back, are the word. -/
theorem encodeInvertsDecode : Obligations.EncodeInvertsDecode := by
  intro w ins h
  unfold decode at h
  split at h
  case h_1 h3 => exact encode_of_decodeGroup0 h3 h
  case h_9 h3 => exact encode_of_decodeGroup8 h3 h
  case h_15 h3 => exact encode_of_decodeGroupE h3 h
  case h_16 =>
    have hlt : (fieldN3 w).toNat < 16 := (fieldN3 w).isLt
    simp only [imp_false] at *
    exact encode_of_decodeGroupF (by omega) h
  case h_2 h3 | h_3 h3 | h_11 h3 | h_12 h3 => cases h; exact wordA_eq_of_fields h3
  case h_4 h3 | h_5 h3 | h_7 h3 | h_8 h3 | h_13 h3 => cases h; exact wordXK_eq_of_field h3
  case h_6 h3 | h_10 h3 => split_ifs at h with h0; cases h; exact wordXYN_eq_of_fields h3 h0
  case h_14 h3 => cases h; exact wordXYN_eq_of_fields h3 rfl

/-! ### Words of a row of the opcode map -/

/-- A row's word has the row's bits in every field that the row's mask fixes. -/
theorem field_of_rowMatches {w m mask : Word} {start len : Nat} (h : rowMatches (m, mask) w = true)
    (hmask : mask.extractLsb' start len = BitVec.allOnes len) : w.extractLsb' start len = m.extractLsb' start len := by
  have hm : w &&& mask = m := beq_iff_eq.1 h
  rw [← hm, BitVec.extractLsb'_and, hmask, BitVec.and_allOnes]

/-- A row whose mask is all ones has one word. -/
theorem eq_of_rowMatches_FFFF {w m : Word} (h : rowMatches (m, 0xFFFF) w = true) : w = m :=
  BitVec.and_allOnes.symm.trans (beq_iff_eq.1 h)

/-- A word of an instruction's row decodes to an instruction of that row: the fields that the row's mask fixes lead decode there. -/
theorem Instr.exists_decode_of_row {ins : Instr} {w : Word} (h : rowMatches ins.row w = true) :
    ∃ j : Instr, decode w = .instr j ∧ j.row = ins.row := by
  cases ins with
  | scd _ =>
    have h3 : fieldN3 w = 0x0 := field_of_rowMatches h (by decide)
    have h2 : fieldN2 w = 0x0 := field_of_rowMatches h (by decide)
    have h1 : fieldN1 w = 0xC := field_of_rowMatches h (by decide)
    simp [decode, decodeGroup0, h3, h2, h1, Instr.row]
  | cls | ret | scr | scl | low | high =>
    obtain rfl := eq_of_rowMatches_FFFF h
    exact ⟨_, rfl, rfl⟩
  | jp _ | call _ | seImm _ _ | sneImm _ _ | ldImm _ _ | addImm _ _ | ldI _ | jpV0 _ | rnd _ _ | drw _ _ _ =>
    have h3 : fieldN3 w = _ := field_of_rowMatches h (by decide)
    simp [decode, h3, Instr.row]
  | seReg _ _ | sneReg _ _ =>
    have h3 : fieldN3 w = _ := field_of_rowMatches h (by decide)
    have h0 : fieldN0 w = _ := field_of_rowMatches h (by decide)
    simp [decode, h3, h0, Instr.row]
  | movReg _ _ | orReg _ _ | andReg _ _ | xorReg _ _ | addReg _ _ | sub _ _ | shr _ _ | subn _ _ | shl _ _ =>
    have h3 : fieldN3 w = _ := field_of_rowMatches h (by decide)
    have h0 : fieldN0 w = _ := field_of_rowMatches h (by decide)
    simp [decode, decodeGroup8, h3, h0, Instr.row]
  | skp _ | sknp _ =>
    have h3 : fieldN3 w = _ := field_of_rowMatches h (by decide)
    have hk : fieldKK w = _ := field_of_rowMatches h (by decide)
    simp [decode, decodeGroupE, h3, hk, Instr.row]
  | ldVxDt _ | ldVxK _ | ldDtVx _ | ldStVx _ | addI _ | ldF _ | ldB _ | stRegs _ | ldRegs _ =>
    have h3 : fieldN3 w = _ := field_of_rowMatches h (by decide)
    have hk : fieldKK w = _ := field_of_rowMatches h (by decide)
    simp [decode, decodeGroupF, h3, hk, Instr.row]

open Laws.EncodeMatchesRow in
/-- The encoding of every instruction is a word of its row (R96). -/
theorem rowMatches_encode : ∀ ins : Instr, rowMatches ins.row (encode ins) = true
  | .scd n => scd n | .cls => cls | .ret => ret | .scr => scr | .scl => scl | .low => low | .high => high
  | .jp nnn => jp nnn | .call nnn => call nnn | .seImm x kk => seImm x kk | .sneImm x kk => sneImm x kk
  | .seReg x y => seReg x y | .ldImm x kk => ldImm x kk | .addImm x kk => addImm x kk | .orReg x y => orReg x y
  | .andReg x y => andReg x y | .xorReg x y => xorReg x y | .addReg x y => addReg x y | .sub x y => sub x y
  | .shr x y => shr x y | .subn x y => subn x y | .shl x y => shl x y | .sneReg x y => sneReg x y | .ldI nnn => ldI nnn
  | .jpV0 nnn => jpV0 nnn | .rnd x kk => rnd x kk | .drw x y n => drw x y n | .skp x => skp x | .sknp x => sknp x
  | .ldVxDt x => ldVxDt x | .ldVxK x => ldVxK x | .ldDtVx x => ldDtVx x | .addI x => addI x | .ldF x => ldF x
  | .ldB x => ldB x | .stRegs x => stRegs x | .ldRegs x => ldRegs x | .movReg x y => movReg x y | .ldStVx x => ldStVx x

/-- One instruction for each of the 37 rows that every machine has, in the table's order. -/
def instrOfEachRow : List Instr :=
  [.scd 0, .cls, .ret, .scr, .scl, .low, .high, .jp 0, .call 0, .seImm 0 0, .sneImm 0 0, .seReg 0 0, .ldImm 0 0, .addImm 0 0,
   .orReg 0 0, .andReg 0 0, .xorReg 0 0, .addReg 0 0, .sub 0 0, .shr 0 0, .subn 0 0, .shl 0 0, .sneReg 0 0, .ldI 0, .jpV0 0,
   .rnd 0 0, .drw 0 0 0, .skp 0, .sknp 0, .ldVxDt 0, .ldVxK 0, .ldDtVx 0, .addI 0, .ldF 0, .ldB 0, .stRegs 0, .ldRegs 0]

theorem opcodeRows_eq_map : opcodeRows = instrOfEachRow.map Instr.row := rfl

theorem mem_enabledRows {c : Config} {row : OpcodeRow} :
    row ∈ enabledRows c ↔ row ∈ opcodeRows ∨ (c.hasMov = true ∧ row = (0x8000, 0xF00F))
      ∨ (c.hasSoundTimer = true ∧ row = (0xF018, 0xF0FF)) := by
  unfold enabledRows
  cases c.hasMov <;> cases c.hasSoundTimer <;> simp

/-- Every enabled row is the row of an instruction. -/
theorem exists_instr_of_mem_enabledRows {c : Config} {row : OpcodeRow} (h : row ∈ enabledRows c) : ∃ ins : Instr, ins.row = row := by
  obtain hmap | ⟨-, rfl⟩ | ⟨-, rfl⟩ := mem_enabledRows.1 h
  · rw [opcodeRows_eq_map, List.mem_map] at hmap
    obtain ⟨ins, -, hrow⟩ := hmap
    exact ⟨ins, hrow⟩
  · exact ⟨.movReg 0 0, rfl⟩
  · exact ⟨.ldStVx 0, rfl⟩

/-- An instruction's row counts exactly when the machine has the instruction (R97). -/
theorem Instr.row_mem_enabledRows {c : Config} {ins : Instr} : ins.row ∈ enabledRows c ↔ ins.wellFormed c = true := by
  rw [mem_enabledRows]
  cases ins with
  | movReg x y => simp [Instr.row, Instr.wellFormed, opcodeRows]
  | ldStVx x => simp [Instr.row, Instr.wellFormed, opcodeRows]
  | _ => exact ⟨fun _ => rfl, fun _ => .inl (by simp [Instr.row, opcodeRows])⟩

/-- A word that matches an enabled row decodes to an instruction of that row. -/
theorem exists_decode_of_rowMatches {c : Config} {row : OpcodeRow} {w : Word} (hrow : row ∈ enabledRows c)
    (h : rowMatches row w = true) : ∃ ins : Instr, decode w = .instr ins ∧ ins.row = row := by
  obtain ⟨i, rfl⟩ := exists_instr_of_mem_enabledRows hrow
  exact Instr.exists_decode_of_row h

/-- Settles O3: both rows are the row of the one instruction that the word decodes to. -/
theorem opcodeRowsAreDisjoint : Obligations.OpcodeRowsAreDisjoint := by
  intro c w r q hr hq hrw hqw
  obtain ⟨i, hi, rfl⟩ := exists_decode_of_rowMatches hr hrw
  obtain ⟨j, hj, rfl⟩ := exists_decode_of_rowMatches hq hqw
  rw [Decoded.instr.inj (hi.symm.trans hj)]

/-! ### Dispatch and the opcode map -/

/-- A dispatched instruction's row is enabled and matches the word. -/
theorem row_of_dispatch {c : Config} {w : Word} {ins : Instr} (h : dispatch c w = .instr ins) :
    ins.row ∈ enabledRows c ∧ rowMatches ins.row w = true := by
  obtain ⟨hd, hwf⟩ := Machine.dispatch_instr_iff.1 h
  have hw : encode ins = w := encodeInvertsDecode w ins hd
  exact ⟨Instr.row_mem_enabledRows.2 hwf, hw ▸ rowMatches_encode ins⟩

/-- A word that matches an enabled row is dispatched. -/
theorem exists_dispatch_of_rowMatches {c : Config} {row : OpcodeRow} {w : Word} (hrow : row ∈ enabledRows c)
    (h : rowMatches row w = true) : ∃ ins : Instr, dispatch c w = .instr ins := by
  obtain ⟨ins, hd, rfl⟩ := exists_decode_of_rowMatches hrow h
  exact ⟨ins, Machine.dispatch_instr_iff.2 ⟨hd, Instr.row_mem_enabledRows.1 hrow⟩⟩

/-- Settles O4: a word is dispatched exactly when an enabled row matches it, and is unmapped otherwise. -/
theorem unmappedExactlyWhenNoRowMatches : Obligations.UnmappedExactlyWhenNoRowMatches := by
  refine fun c w => ⟨⟨fun hun row hrow => ?_, fun hno => ?_⟩, fun ins => row_of_dispatch⟩
  · rw [Bool.eq_false_iff]
    intro hmatch
    obtain ⟨ins, hd⟩ := exists_dispatch_of_rowMatches hrow hmatch
    rw [hun] at hd
    cases hd
  · cases hd : dispatch c w with
    | unmapped v => rw [Machine.dispatch_unmapped hd]
    | instr ins =>
      obtain ⟨hrow, hmatch⟩ := row_of_dispatch hd
      rw [hno _ hrow] at hmatch
      cases hmatch

/-- Settles O5, by evaluating decode on the twelve words. -/
theorem sampleWordsDecode : Obligations.SampleWordsDecode := by
  unfold Obligations.SampleWordsDecode
  decide

end Sys2Proof
end

section
/-! The execution cycle (40_execution_cycle R121 to R129): what a step begins with, how it fetches, and what it answers. A step answers
a fault taken in the state its instruction starts in, or the finished effect of the dispatched instruction
(`step_faulted_or_completed`); the rules about every step are case analyses of that. -/

namespace Sys2Proof.Machine

/-! ### Ticks -/

@[simp] theorem State.ticks_zero (s : State) : s.ticks 0 = s := by
  simp [State.ticks]

/-- `n` ticks at once are the tick iterated (R127). -/
theorem State.ticks_eq_iterate (s : State) (n : Nat) : s.ticks n = State.tick^[n] s := by
  induction n with
  | zero => exact s.ticks_zero
  | succ n ih => rw [Function.iterate_succ_apply', ← ih, State.tick_ticks]

/-- Settles O48: each timer by `tickDown_toNat`, the iteration by induction on the number of ticks. -/
theorem ticksCountDownToZero : Obligations.TicksCountDownToZero := by
  intro s n
  refine ⟨tickDown_toNat s.dt, ?_, rfl, s.ticks_eq_iterate n⟩
  rw [State.tick_st]
  split
  · exact tickDown_toNat s.st
  · rfl

theorem State.ticksDue_of_free {s : State} (h : s.cfg.tickBatch = none) : s.ticksDue = Config.ticksBefore s.stepNo := by
  simp [State.ticksDue, h]

theorem State.ticksDue_of_batch {s : State} (h : s.cfg.tickBatch ≠ none) : s.ticksDue = 0 := by
  obtain ⟨n, hn⟩ := Option.ne_none_iff_exists'.1 h
  simp [State.ticksDue, hn]

/-! ### The beginning of a step and the fetch -/

/-- Settles O42: the timers by the laws of `ticks`, the other fields by definition. -/
theorem stepBeginsWithTicksAndKeyRefresh : Obligations.StepBeginsWithTicksAndKeyRefresh := by
  intro s
  refine ⟨rfl, s.ticks_dt_toNat _, fun h => ?_, fun h => ?_, State.ticksDue_of_free, State.ticksDue_of_batch, rfl, rfl, rfl, rfl⟩
  · rw [State.beginStep_st, State.ticks_st_toNat, if_pos h]
  · rw [State.beginStep_st, State.ticks_st, h]
    rfl

/-- The number of a word from its two bytes, high byte first (R63). -/
theorem toNat_wordOfBytes (b0 b1 : Byte) : (wordOfBytes b0 b1).toNat = b0.toNat * 256 + b1.toNat := by
  rw [wordOfBytes, BitVec.toNat_append, ← Nat.shiftLeft_add_eq_or_of_lt b1.isLt, Nat.shiftLeft_eq]

/-- The fetch looks at memory and PC alone. -/
theorem State.fetch_congr {s t : State} (hcfg : t.cfg = s.cfg) (hmem : t.mem = s.mem) (hpc : t.pc = s.pc) : t.fetch = s.fetch := by
  simp only [State.fetch, State.byteAt, hcfg, hmem, hpc]

@[simp] theorem State.beginStep_fetch (s : State) : s.beginStep.fetch = s.fetch := rfl

/-- A step of a running core whose fetch fails takes the fault of R123. -/
theorem step_of_fetch_none {s : State} (hrun : s.run = .running) (hf : s.beginStep.fetch = none) :
    step s = .next (s.beginStep.raise .addressOutOfRange (s.pc.toNat + 1) none) := by
  simp only [step, hrun, hf]

/-- Settles O44: in range the two bytes make the word, out of range the fetch gives none. -/
theorem fetchReadsTwoBytesOrFaults : Obligations.FetchReadsTwoBytesOrFaults := by
  refine fun s => ⟨fun hle => ⟨_, if_pos hle, toNat_wordOfBytes _ _⟩, fun hrun hgt => ?_⟩
  have hf : s.beginStep.fetch = none := s.fetch_eq_none_iff.2 (by omega)
  exact ⟨_, step_of_fetch_none hrun hf, State.raise_faultTaken ..⟩

/-! ### What a step answers -/

/-- A step of a running core runs the dispatched instruction and then counts it (R121). -/
theorem step_of_dispatch {s u : State} {w : Word} {ins : Instr} (hrun : s.run = .running) (hf : s.beginStep.fetch = some w)
    (hd : dispatch s.cfg w = .instr ins) (hu : exec ins s.beginStep = .next u) : step s = .next u.finishStep := by
  simp only [step, hrun, hf, runWord, State.beginStep_cfg, hd, hu]

/-- Settles O41: the decoded instruction is dispatched, and every instruction answers a next state. -/
theorem stepRunsTheDecodedInstruction : Obligations.StepRunsTheDecodedInstruction := by
  intro s w ins hrun hf hdec hwf
  obtain ⟨u, hu, -⟩ := exec_cases ins s.beginStep
  rw [hu]
  exact step_of_dispatch hrun hf (dispatch_instr_iff.2 ⟨hdec, hwf⟩) hu

/-- The word of a dispatched instruction is its encoding. -/
theorem encode_of_dispatch {c : Config} {w : Word} {ins : Instr} (h : dispatch c w = .instr ins) : encode ins = w :=
  encodeInvertsDecode w ins (dispatch_instr_iff.1 h).1

/-- A step took a fault whose recorded word is what was fetched, or it completed the dispatched instruction and finished. -/
theorem step_faulted_or_completed {s t : State} (h : step s = .next t) :
    (∃ kind info, t = s.beginStep.raise kind info s.beginStep.fetch) ∨
      ∃ w ins, t.run = .running ∧ s.beginStep.fetch = some w ∧ dispatch s.cfg w = .instr ins
        ∧ exec ins s.beginStep = .next (effectOf s.beginStep ins) ∧ t = (effectOf s.beginStep ins).finishStep := by
  obtain ⟨hrun, ⟨hf, rfl⟩ | ⟨w, hf, ⟨-, rfl⟩ | ⟨ins, u, hd, hu, rfl⟩⟩⟩ := step_cases h
  · exact .inl ⟨_, _, by rw [hf]⟩
  · exact .inl ⟨_, _, by rw [hf]⟩
  · obtain ⟨kind, info, rfl⟩ | ⟨-, rfl⟩ := exec_next_effect hu
    · exact .inl ⟨kind, info, by rw [hf, encode_of_dispatch hd, State.finishStep_halted rfl]⟩
    · have ht : (effectOf s.beginStep ins).finishStep.run = .running := by
        rw [State.finishStep_run, (effectOf_completed _ ins).run, State.beginStep_run, hrun]
      exact .inr ⟨w, ins, ht, hf, hd, hu, rfl⟩

/-- Settles O46: a completed step does not end halted. -/
theorem faultingStepKeepsThePreInstructionState : Obligations.FaultingStepKeepsThePreInstructionState := by
  intro s t h ht
  obtain ⟨kind, info, rfl⟩ | ⟨_, _, hrun, -⟩ := step_faulted_or_completed h
  · exact ⟨kind, info, State.raise_faultTaken .., rfl, rfl, step_of_halted ht⟩
  · exact absurd (hrun.symm.trans ht) (by decide)

/-- Settles O47: neither a fault nor a completed instruction nor the batch count touches the refreshed latch. -/
theorem keysRefreshedEveryStep : Obligations.KeysRefreshedEveryStep := by
  intro s t h
  obtain ⟨kind, info, rfl⟩ | ⟨_, ins, -, -, -, -, rfl⟩ := step_faulted_or_completed h
  · rfl
  · rw [State.finishStep_keys, (effectOf_completed _ ins).keys, State.beginStep_keys]

/-! ### The batch count -/

theorem State.beginStep_dt_of_batch {s : State} {n : Nat} (hn : s.cfg.tickBatch = some n) : s.beginStep.dt = s.dt := by
  rw [State.beginStep_dt, State.ticksDue_of_batch (by simp [hn]), State.ticks_zero]

/-- Under TICK_BATCH = n a completed step counts, or ticks and restarts the count (R127). -/
theorem State.finishStep_of_batch {s : State} {n : Nat} (hrun : s.run = .running) (hn : s.cfg.tickBatch = some n) :
    s.finishStep = if s.batchCnt + 1 = n then { s.tick with batchCnt := 0 } else { s with batchCnt := s.batchCnt + 1 } := by
  simp only [State.finishStep, hrun, hn]

/-- Settles O49: a fault keeps what `beginStep` left, and a completed instruction leaves the batch count to `finishStep`. -/
theorem batchTicksAfterEveryNthStep : Obligations.BatchTicksAfterEveryNthStep := by
  intro s t n hn hrun h
  have hdt := State.beginStep_dt_of_batch hn
  refine ⟨hdt, ?_⟩
  obtain ⟨kind, info, rfl⟩ | ⟨w, ins, ht, -, -, hu, rfl⟩ := step_faulted_or_completed h
  · exact ⟨fun _ => ⟨rfl, hdt⟩, fun hr => absurd hr (by simp)⟩
  · have same := effectOf_completed s.beginStep ins
    refine ⟨fun hr => absurd (ht.symm.trans hr) (by decide), fun _ => ⟨ins, _, hu, same.batchCnt, ?_⟩⟩
    rw [State.finishStep_of_batch (same.run.trans hrun) ((congrArg Config.tickBatch same.cfg).trans hn), same.batchCnt,
      State.beginStep_batchCnt]

/-! ### The redraw request -/

/-- Clear-screen and draw-sprite assert the request, every other instruction keeps it (R128). -/
theorem effectOf_redrawReq (s : State) (ins : Instr) :
    (effectOf s ins).redrawReq = true ↔ s.redrawReq = true ∨ ins = .cls ∨ ∃ x y n, ins = .drw x y n := by
  cases ins with
  | cls => exact ⟨fun _ => .inr (.inl rfl), fun _ => rfl⟩
  | drw x y n => exact ⟨fun _ => .inr (.inr ⟨x, y, n, rfl⟩), fun _ => rfl⟩
  | _ => exact (or_iff_left (by simp)).symm

/-- Settles O50: a step begins with the request off, and a completed instruction asserts it as `effectOf_redrawReq` says. -/
theorem redrawExactlyAfterClearOrDraw : Obligations.RedrawExactlyAfterClearOrDraw := by
  intro s t h
  obtain ⟨kind, info, rfl⟩ | ⟨w, ins, ht, hf, hd, -, rfl⟩ := step_faulted_or_completed h
  · simp
  · rw [State.finishStep_redrawReq, effectOf_redrawReq, State.beginStep_redrawReq]
    constructor
    · intro hreq
      exact ⟨ht, w, ins, hf, hd, hreq.resolve_left (by decide)⟩
    · rintro ⟨-, w', ins', hf', hd', hins⟩
      obtain rfl : w = w' := Option.some.inj (hf.symm.trans hf')
      obtain rfl : ins = ins' := Decoded.instr.inj (hd.symm.trans hd')
      exact .inr hins

/-! ### A jump to itself -/

/-- From a settled state the step is the finished jump to the same PC. -/
theorem State.SettledAt.step_eq {s : State} {a : Addr} (h : s.SettledAt a) : step s = .next s.beginStep.finishStep := by
  obtain ⟨hrun, hpc, hf⟩ := h
  have htarget : zextAddr a = s.pc := BitVec.eq_of_toNat_eq ((toNat_zextAddr a).trans hpc.symm)
  have hd : dispatch s.cfg (encode (.jp a)) = .instr (.jp a) := dispatch_instr_iff.2 ⟨decodeInvertsEncode _, rfl⟩
  have hjump : exec (.jp a) s.beginStep = .next (s.beginStep.setPc s.pc) := by
    rw [← htarget]
    rfl
  exact step_of_dispatch hrun hf hd hjump

/-- Settles O55: the step begins and finishes around a jump that keeps PC, and neither touches memory, PC or RUN. -/
theorem selfJumpSettles : Obligations.SelfJumpSettles := by
  intro s a h
  have hstep := h.step_eq
  obtain ⟨hrun, hpc, hf⟩ := h
  refine ⟨_, hstep, ⟨?_, ?_, ?_⟩, ?_⟩
  · rw [State.finishStep_run, State.beginStep_run, hrun]
  · rw [State.finishStep_pc, State.beginStep_pc, hpc]
  · rw [State.fetch_congr (State.finishStep_cfg _) (State.finishStep_mem _) (State.finishStep_pc _), State.beginStep_fetch, hf]
  · rw [State.finishStep_eq]
    rfl

end Sys2Proof.Machine
end

section
/-! Screen control (41_screen_control R140 to R145): clear-screen, the resolution switches and the scrolls. A scroll is a shift of the
flat row-major buffer, so what it does to a pixel is the law of that shift read at the pixel's cell index. -/

namespace Sys2Proof.Machine

/-! ### Display updates of an advanced state -/

@[simp] theorem State.setDisp_pixel (s : State) (d : List Bool) (c r : Nat) :
    (s.setDisp d).pixel c r = d.getD (r * s.mode.cols + c) false := rfl

theorem onlyPcAndDisplay_advance (s : State) : OnlyPcAndDisplay s s.advance :=
  ⟨fun _ _ => rfl, rfl, fun _ => rfl, ⟨rfl, rfl⟩, ⟨rfl, rfl, rfl⟩, ⟨rfl, rfl⟩, ⟨rfl, rfl, rfl, rfl⟩, rfl⟩

theorem OnlyPcAndDisplay.setDisp {s t : State} (h : OnlyPcAndDisplay s t) (d : List Bool) : OnlyPcAndDisplay s (t.setDisp d) := h

theorem OnlyPcAndDisplay.switchMode {s t : State} (h : OnlyPcAndDisplay s t) (m : Mode) : OnlyPcAndDisplay s (t.switchMode m) := h

theorem OnlyPcAndDisplay.redraw {s t : State} (h : OnlyPcAndDisplay s t) : OnlyPcAndDisplay s t.redraw := h

/-! ### Pixels after a scroll -/

section
variable {s : State} (hd : s.disp.length = s.mode.cols * s.mode.rows) {c r : Nat} (hg : s.onGrid c r)
include hd hg

theorem State.onGrid.cellIndex_lt_length : r * s.mode.cols + c < s.disp.length := by
  obtain ⟨hc, hr⟩ := hg
  exact hd ▸ cellIndex_lt hc hr

/-- R143: the pixel comes from `n` rows above, since `n` rows of the flat buffer are `n * COLS` cells. -/
theorem pixel_setDisp_shiftDown (n : Nat) :
    (s.setDisp (shiftDown s.mode.cols n s.disp)).pixel c r = if n ≤ r then s.pixel c (r - n) else false := by
  rw [State.setDisp_pixel, getD_shiftDown _ _ _ (State.onGrid.cellIndex_lt_length hd hg)]
  have hrow : n * s.mode.cols ≤ r * s.mode.cols + c ↔ n ≤ r := by
    rw [← Nat.le_div_iff_mul_le s.mode.cols_pos, cellIndex_div r hg.1]
  simp only [hrow]
  split
  · next hn => rw [State.pixel, Nat.sub_mul, Nat.sub_add_comm (Nat.mul_le_mul_right _ hn)]
  · rfl

/-- R144: the pixel comes from 4 columns to the left in the same row. -/
theorem pixel_setDisp_shiftRight :
    (s.setDisp (shiftRight s.mode.cols s.disp)).pixel c r = if 4 ≤ c then s.pixel (c - 4) r else false := by
  rw [State.setDisp_pixel, getD_shiftRight _ _ (State.onGrid.cellIndex_lt_length hd hg), cellIndex_mod r hg.1]
  split
  · next hc => rw [State.pixel, ← Nat.add_sub_assoc hc, decide_eq_true hc, Bool.true_and]
  · next hc => rw [decide_eq_false hc, Bool.false_and]

/-- R145: the pixel comes from 4 columns to the right in the same row. -/
theorem pixel_setDisp_shiftLeft :
    (s.setDisp (shiftLeft s.mode.cols s.disp)).pixel c r = if c + 4 < s.mode.cols then s.pixel (c + 4) r else false := by
  rw [State.setDisp_pixel, getD_shiftLeft _ _ (State.onGrid.cellIndex_lt_length hd hg), cellIndex_mod r hg.1]
  split
  · next hc => rw [State.pixel, ← Nat.add_assoc, decide_eq_true hc, Bool.true_and]
  · next hc => rw [decide_eq_false hc, Bool.false_and]

end

/-! ### The obligations -/

/-- Settles O9: a row moved down by N is the shift by N rows of the flat buffer. -/
theorem scrollDownMovesRows : Obligations.ScrollDownMovesRows := by
  intro s n hd
  have hword : (encode (.scd n)).toNat = 0x00C0 + n.toNat := by
    rw [encode_scd, toNat_wordXYN]
    rfl
  exact ⟨_, rfl, rfl, length_shiftDown .., fun _ _ hg => pixel_setDisp_shiftDown hd hg n.toNat, rfl, rfl,
    (onlyPcAndDisplay_advance s).setDisp _, hword⟩

/-- Settles O10: the shift by 4 cells, with the 4 that would come from the previous row cleared. -/
theorem scrollRightMovesFourColumns : Obligations.ScrollRightMovesFourColumns := fun s hd =>
  ⟨_, rfl, rfl, length_shiftRight .., fun _ _ hg => pixel_setDisp_shiftRight hd hg, rfl, rfl,
    (onlyPcAndDisplay_advance s).setDisp _, rfl⟩

/-- Settles O11: the shift by 4 cells, with the 4 that would come from the next row cleared. -/
theorem scrollLeftMovesFourColumns : Obligations.ScrollLeftMovesFourColumns := fun s hd =>
  ⟨_, rfl, rfl, length_shiftLeft .., fun _ _ hg => pixel_setDisp_shiftLeft hd hg, rfl, rfl,
    (onlyPcAndDisplay_advance s).setDisp _, rfl⟩

/-- Settles O7: the new buffer is false in every cell, and false is what a pixel outside it reads as. -/
theorem clearScreenSetsEveryCellFalse : Obligations.ClearScreenSetsEveryCellFalse := fun s =>
  ⟨_, rfl, rfl, List.length_replicate, fun _ _ => List.getElem?_getD_replicate_default_eq .., rfl, rfl,
    ((onlyPcAndDisplay_advance s).setDisp _).redraw, rfl⟩

/-- Settles O8: neither switch looks at the old mode or buffer. -/
theorem resolutionSwitchesReallocateAndClear : Obligations.ResolutionSwitchesReallocateAndClear := fun s =>
  ⟨⟨_, rfl, rfl, List.length_replicate, fun _ => List.eq_of_mem_replicate, rfl, rfl,
      (onlyPcAndDisplay_advance s).switchMode .low, rfl⟩,
    ⟨_, rfl, rfl, List.length_replicate, fun _ => List.eq_of_mem_replicate, rfl, rfl,
      (onlyPcAndDisplay_advance s).switchMode .high, rfl⟩⟩

end Sys2Proof.Machine
end

section
/-! Control flow (42_control_flow R160 to R168): return, jump, call, the four skips that compare registers or an immediate, and
jump-with-offset. Each is an update of the advanced state, so its frame is that of `State.advance` carried through the update. -/

namespace Sys2Proof.Machine

/-! ### Frames of an advanced state -/

theorem onlyPcAndRegs_advance (ws : List Reg) (s : State) : OnlyPcAndRegs ws s s.advance :=
  ⟨fun _ _ => rfl, rfl, fun _ => rfl, ⟨rfl, rfl⟩, ⟨rfl, rfl, rfl⟩, ⟨rfl, rfl⟩, ⟨rfl, rfl⟩, ⟨rfl, rfl, rfl, rfl⟩, ⟨rfl, rfl⟩⟩

theorem OnlyPcAndRegs.setPc {ws : List Reg} {s t : State} (h : OnlyPcAndRegs ws s t) (w : Word) : OnlyPcAndRegs ws s (t.setPc w) := h

theorem OnlyPcAndRegs.skipIf {ws : List Reg} {s t : State} (h : OnlyPcAndRegs ws s t) (c : Bool) :
    OnlyPcAndRegs ws s (t.skipIf c) := h

theorem onlyPcAndStack_advance (s : State) : OnlyPcAndStack s s.advance :=
  ⟨fun _ _ => rfl, rfl, fun _ => rfl, ⟨rfl, rfl, rfl⟩, ⟨rfl, rfl⟩, ⟨rfl, rfl⟩, ⟨rfl, rfl, rfl, rfl⟩, ⟨rfl, rfl⟩⟩

theorem OnlyPcAndStack.setPc {s t : State} (h : OnlyPcAndStack s t) (w : Word) : OnlyPcAndStack s (t.setPc w) := h

theorem OnlyPcAndStack.push {s t : State} (h : OnlyPcAndStack s t) (w : Word) : OnlyPcAndStack s (t.push w) := h

theorem OnlyPcAndStack.pop {s t : State} (h : OnlyPcAndStack s t) : OnlyPcAndStack s t.pop := h

/-! ### The call stack (R28) -/

theorem State.push_stack_getElem_sp (s : State) (w : Word) (h : s.sp.val < 128) : (s.push w).stack[s.sp.val] = w :=
  Vector.getElem_setIfInBounds_self h

theorem State.push_stack_getElem_ne (s : State) (w : Word) {k : Nat} (hk : k < 128) (hne : k ≠ s.sp.val) :
    (s.push w).stack[k] = s.stack[k] :=
  Vector.getElem_setIfInBounds_ne hk hne.symm

theorem State.push_sp_val (s : State) (w : Word) (h : s.sp.val < 128) : (s.push w).sp.val = s.sp.val + 1 :=
  Nat.min_eq_left h

/-! ### What return and call answer -/

theorem exec_ret_of_empty {s : State} (h : s.sp = 0) : exec .ret s = .next (s.raise .stackUnderflow 0 (some 0x00EE)) := by
  change execRet s = _
  rw [execRet, if_pos h, h]
  rfl

theorem exec_ret_of_pos {s : State} (h : 0 < s.sp.val) : exec .ret s = .next s.advance.pop :=
  congrArg Host.Outcome.next (if_neg fun h0 => h.ne' (congrArg Fin.val h0))

theorem exec_call_of_full {s : State} {nnn : Addr} (h : s.sp = 128) :
    exec (.call nnn) s = .next (s.raise .stackOverflow 128 (some (encode (.call nnn)))) := by
  change execCall nnn s = _
  rw [execCall, if_pos h, h]
  rfl

theorem exec_call_of_lt {s : State} {nnn : Addr} (h : s.sp.val < 128) :
    exec (.call nnn) s = .next ((s.advance.push s.advance.pc).setPc (zextAddr nnn)) :=
  congrArg Host.Outcome.next (if_neg fun h128 => h.ne (congrArg Fin.val h128))

/-! ### What a skip does -/

/-- A skip by the test `c` of the condition `p`: where it lands, and its frame (R167). -/
theorem State.advance_skipIf_spec (s : State) {c : Bool} {p : Prop} [Decidable p] (h : c = true ↔ p) :
    (s.advance.skipIf c).pc = (if p then s.pc + 4 else s.pc + 2) ∧ OnlyPcAndRegs [] s (s.advance.skipIf c) := by
  refine ⟨?_, (onlyPcAndRegs_advance [] s).skipIf c⟩
  rw [State.advance_skipIf_pc]
  simp only [h]

/-! ### The obligations -/

/-- Settles O12: the two answers of return, by whether the stack is empty. -/
theorem returnPopsOrUnderflows : Obligations.ReturnPopsOrUnderflows := fun s =>
  ⟨fun h => ⟨_, exec_ret_of_empty h, s.raise_faultTaken ..⟩,
    fun h => ⟨_, exec_ret_of_pos h, rfl, rfl, rfl, (onlyPcAndStack_advance s).pop⟩, rfl⟩

/-- Settles O13: the jump is one write of PC. -/
theorem jumpSetsPc : Obligations.JumpSetsPc := fun s nnn =>
  ⟨_, rfl, toNat_zextAddr nnn, (onlyPcAndRegs_advance [] s).setPc _, toNat_wordA 0x1 nnn⟩

/-- Settles O14: the two answers of call, by whether the stack is full. -/
theorem callPushesOrOverflows : Obligations.CallPushesOrOverflows := by
  intro s nnn
  refine ⟨fun h => ⟨_, exec_call_of_full h, s.raise_faultTaken ..⟩, fun h => ⟨_, exec_call_of_lt h, ?_⟩, toNat_wordA 0x2 nnn⟩
  exact ⟨s.advance.push_stack_getElem_sp _ h, fun k hk hne => s.advance.push_stack_getElem_ne _ hk hne,
    s.advance.push_sp_val s.advance.pc h, toNat_zextAddr nnn, ((onlyPcAndStack_advance s).push _).setPc _⟩

/-- Settles O15: both are skips, by the test of equality and of inequality. -/
theorem skipsComparingAnImmediate : Obligations.SkipsComparingAnImmediate := by
  intro s x kk
  obtain ⟨heqPc, heqFrame⟩ := s.advance_skipIf_spec (beq_iff_eq (a := s.reg x) (b := kk))
  obtain ⟨hnePc, hneFrame⟩ := s.advance_skipIf_spec (bne_iff_ne (a := s.reg x) (b := kk))
  exact ⟨⟨_, rfl, heqPc, heqFrame, toNat_wordXK 0x3 x kk⟩, ⟨_, rfl, hnePc, hneFrame, toNat_wordXK 0x4 x kk⟩⟩

/-- Settles O16: both are skips, as with an immediate, and decode takes a word of their groups only with the last nibble 0. -/
theorem skipsComparingRegisters : Obligations.SkipsComparingRegisters := by
  intro s x y
  obtain ⟨heqPc, heqFrame⟩ := s.advance_skipIf_spec (beq_iff_eq (a := s.reg x) (b := s.reg y))
  obtain ⟨hnePc, hneFrame⟩ := s.advance_skipIf_spec (bne_iff_ne (a := s.reg x) (b := s.reg y))
  refine ⟨⟨_, rfl, heqPc, heqFrame, toNat_wordXYN 0x5 x y 0x0⟩, ⟨_, rfl, hnePc, hneFrame, toNat_wordXYN 0x9 x y 0x0⟩, ?_⟩
  intro n hn
  exact ⟨by simpa [decode] using hn, by simpa [decode] using hn⟩

/-- Settles O17: the sum of a 12-bit and an 8-bit number does not wrap in PC's 16 bits. -/
theorem jumpWithOffsetAddsRegisterZero : Obligations.JumpWithOffsetAddsRegisterZero := fun s nnn =>
  ⟨_, rfl, toNat_zextAddr_add_zextByte nnn _, (onlyPcAndRegs_advance [] s).setPc _, toNat_wordA 0xB nnn⟩

end Sys2Proof.Machine
end

section
/-! Immediate instructions (43_immediate R180 to R182): load-immediate and add-immediate. Each is one register write to the advanced
state, so its frame is that of `State.advance` carried through the write. -/

namespace Sys2Proof.Machine

/-! ### Frame of a register write -/

theorem SameRegsBut.setReg {ws : List Reg} {s t : State} (h : SameRegsBut ws s t) {x : Reg} (hx : x ∈ ws) (b : Byte) :
    SameRegsBut ws s (t.setReg x b) := fun r hr =>
  (t.reg_setReg_ne b (ne_of_mem_of_not_mem hx hr).symm).trans (h r hr)

theorem OnlyPcAndRegs.setReg {ws : List Reg} {s t : State} (h : OnlyPcAndRegs ws s t) {x : Reg} (hx : x ∈ ws) (b : Byte) :
    OnlyPcAndRegs ws s (t.setReg x b) :=
  h.imp_left fun hregs => hregs.setReg hx b

/-- A register write to the advanced state: what it holds, where PC stands, and its frame (R182). -/
theorem State.advance_setReg_spec (s : State) (x : Reg) (b : Byte) :
    (s.advance.setReg x b).reg x = b ∧ (s.advance.setReg x b).pc = s.pc + 2 ∧ OnlyPcAndRegs [x] s (s.advance.setReg x b) :=
  ⟨s.advance.reg_setReg_same x b, rfl, (onlyPcAndRegs_advance [x] s).setReg (List.mem_singleton_self x) b⟩

/-! ### The obligation -/

/-- Settles O18: both are one register write, of KK (R180) and of the 8-bit sum, whose number is reduced modulo 256 (R181). -/
theorem immediatesLoadAndAddWithoutFlag : Obligations.ImmediatesLoadAndAddWithoutFlag := by
  intro s x kk
  obtain ⟨hldReg, hldPc, hldFrame⟩ := s.advance_setReg_spec x kk
  obtain ⟨haddReg, haddPc, haddFrame⟩ := s.advance_setReg_spec x (s.reg x + kk)
  have hsum : ((s.advance.setReg x (s.reg x + kk)).reg x).toNat = ((s.reg x).toNat + kk.toNat) % 256 := by
    rw [haddReg, BitVec.toNat_add]
  exact ⟨⟨_, rfl, hldReg, hldPc, hldFrame, toNat_wordXK 0x6 x kk⟩, ⟨_, rfl, hsum, haddPc, haddFrame, toNat_wordXK 0x7 x kk⟩⟩

end Sys2Proof.Machine
end

section
/-! Register arithmetic (44_arithmetic R190 to R198). The logic instructions and the register move are one register write to the
advanced state. ADD, the subtractions and the shifts write a status and then the result (R23), with what that leaves said once in
`State.advance_setStatusThenReg_spec`; each of them adds the condition its status tests and the number of its result. -/

namespace Sys2Proof

/-! ### The words of group 8 and their dispatch -/

theorem toNat_wordXYN_group8 (x y : Reg) (n : Nibble) :
    (wordXYN 0x8 x y n).toNat = 0x8000 + n.toNat + 0x100 * x.val + 0x10 * y.val := by
  have h8 : (0x8 : Nibble).toNat = 8 := rfl
  rw [toNat_wordXYN, h8]
  omega

/-- The word of an instruction dispatches it when the machine has its row, and is unmapped otherwise (R97). -/
theorem dispatch_encode (c : Config) (ins : Instr) :
    dispatch c (encode ins) = if ins.wellFormed c = true then .instr ins else .unmapped (encode ins) := by
  rw [dispatch, decodeInvertsEncode]

end Sys2Proof

namespace Sys2Proof.Machine

/-! ### A status and then a result written to the advanced state -/

/-- What number stands in the result register, what in VF, where PC stands, and the frame (R23), for a status that tests the condition
`p` and a result of number `n`. -/
theorem State.advance_setStatusThenReg_spec (s : State) (x : Reg) {c : Bool} {p : Prop} [Decidable p] (hstatus : c = true ↔ p)
    {b : Byte} {n : Nat} (hresult : b.toNat = n) :
    ((s.advance.setStatusThenReg (flagByte c) x b).reg x).toNat = n
      ∧ (x ≠ 15 → (s.advance.setStatusThenReg (flagByte c) x b).reg 15 = if p then 1 else 0)
      ∧ (s.advance.setStatusThenReg (flagByte c) x b).pc = s.pc + 2
      ∧ OnlyPcAndRegs [15, x] s (s.advance.setStatusThenReg (flagByte c) x b) := by
  refine ⟨?_, fun hx => ?_, rfl, ?_⟩
  · rw [State.setStatusThenReg, State.reg_setReg_same, hresult]
  · rw [State.reg_setStatusThenReg, if_neg hx.symm, regF, if_pos rfl]
    simp only [flagByte, hstatus]
  · have hF : regF ∈ [15, x] := List.mem_cons_self
    have hx : x ∈ [15, x] := List.mem_cons_of_mem _ (List.mem_singleton_self x)
    exact ((onlyPcAndRegs_advance [15, x] s).setReg hF _).setReg hx b

/-! ### The shifted register, the bits shifted out, and the numbers of the results -/

theorem State.shiftOperand_eq (s : State) (x y : Reg) :
    s.shiftOperand x y = if s.cfg.shiftSrc = .x then s.reg x else s.reg y := by
  rw [State.shiftOperand]
  cases s.cfg.shiftSrc <;> rfl

theorem getLsbD_zero_iff (a : Byte) : a.getLsbD 0 = true ↔ a.toNat % 2 = 1 := by
  rw [BitVec.getLsbD, Nat.testBit_zero, decide_eq_true_iff]

theorem getLsbD_seven_iff (a : Byte) : a.getLsbD 7 = true ↔ 128 ≤ a.toNat := by
  have hmsb : a.msb = a.getLsbD 7 := BitVec.msb_eq_getLsbD_last a
  rw [← hmsb, BitVec.msb_eq_decide, decide_eq_true_iff]

theorem toNat_sub_byte (a b : Byte) : (a - b).toNat = (a.toNat + 256 - b.toNat) % 256 := by
  have hb : b.toNat < 256 := b.isLt
  rw [BitVec.toNat_sub]
  omega

theorem toNat_ushiftRight_one (a : Byte) : (a >>> 1).toNat = a.toNat / 2 := by
  rw [BitVec.toNat_ushiftRight, Nat.shiftRight_one]

theorem toNat_shiftLeft_one (a : Byte) : (a <<< 1).toNat = 2 * a.toNat % 256 := by
  rw [BitVec.toNat_shiftLeft, Nat.shiftLeft_eq, Nat.mul_comm]

/-! ### The obligations -/

/-- Settles O19: each is one register write, so VF is written only as V[X]. -/
theorem logicWritesOnlyItsDestination : Obligations.LogicWritesOnlyItsDestination := by
  intro s x y
  obtain ⟨horReg, horPc, horFrame⟩ := s.advance_setReg_spec x (s.reg x ||| s.reg y)
  obtain ⟨handReg, handPc, handFrame⟩ := s.advance_setReg_spec x (s.reg x &&& s.reg y)
  obtain ⟨hxorReg, hxorPc, hxorFrame⟩ := s.advance_setReg_spec x (s.reg x ^^^ s.reg y)
  exact ⟨⟨_, rfl, horReg, horPc, horFrame, toNat_wordXYN_group8 x y 0x1⟩,
    ⟨_, rfl, handReg, handPc, handFrame, toNat_wordXYN_group8 x y 0x2⟩,
    ⟨_, rfl, hxorReg, hxorPc, hxorFrame, toNat_wordXYN_group8 x y 0x3⟩⟩

/-- Settles O20: the status tests the sum before it is truncated. -/
theorem addSetsCarryThenStoresSum : Obligations.AddSetsCarryThenStoresSum := by
  intro s x y
  obtain ⟨hreg, hflag, hpc, hframe⟩ := s.advance_setStatusThenReg_spec x
    (decide_eq_true_iff (p := (s.reg x).toNat + (s.reg y).toNat > 255)) (BitVec.toNat_add (s.reg x) (s.reg y))
  exact ⟨_, rfl, hreg, hflag, hpc, hframe, toNat_wordXYN_group8 x y 0x4⟩

/-- Settles O21: the two differ by which operand is the minuend. -/
theorem subtractionsSetStrictGreaterThenStoreDifference : Obligations.SubtractionsSetStrictGreaterThenStoreDifference := by
  intro s x y
  obtain ⟨hsubReg, hsubFlag, hsubPc, hsubFrame⟩ := s.advance_setStatusThenReg_spec x
    (decide_eq_true_iff (p := (s.reg x).toNat > (s.reg y).toNat)) (toNat_sub_byte (s.reg x) (s.reg y))
  obtain ⟨hsubnReg, hsubnFlag, hsubnPc, hsubnFrame⟩ := s.advance_setStatusThenReg_spec x
    (decide_eq_true_iff (p := (s.reg y).toNat > (s.reg x).toNat)) (toNat_sub_byte (s.reg y) (s.reg x))
  exact ⟨⟨_, rfl, hsubReg, hsubFlag, hsubPc, hsubFrame, toNat_wordXYN_group8 x y 0x5⟩,
    ⟨_, rfl, hsubnReg, hsubnFlag, hsubnPc, hsubnFrame, toNat_wordXYN_group8 x y 0x7⟩⟩

/-- Settles O22: the bit shifted out to the right is the remainder modulo 2. -/
theorem shiftRightSetsLowBitThenHalves : Obligations.ShiftRightSetsLowBitThenHalves := by
  intro s x y a ha
  obtain rfl : a = s.shiftOperand x y := ha.trans (s.shiftOperand_eq x y).symm
  obtain ⟨hreg, hflag, hpc, hframe⟩ := s.advance_setStatusThenReg_spec x
    (getLsbD_zero_iff (s.shiftOperand x y)) (toNat_ushiftRight_one (s.shiftOperand x y))
  exact ⟨_, rfl, hreg, hflag, hpc, hframe, toNat_wordXYN_group8 x y 0x6⟩

/-- Settles O23: the bit shifted out to the left is set from 128 on. -/
theorem shiftLeftSetsHighBitThenDoubles : Obligations.ShiftLeftSetsHighBitThenDoubles := by
  intro s x y a ha
  obtain rfl : a = s.shiftOperand x y := ha.trans (s.shiftOperand_eq x y).symm
  obtain ⟨hreg, hflag, hpc, hframe⟩ := s.advance_setStatusThenReg_spec x
    (getLsbD_seven_iff (s.shiftOperand x y)) (toNat_shiftLeft_one (s.shiftOperand x y))
  exact ⟨_, rfl, hreg, hflag, hpc, hframe, toNat_wordXYN_group8 x y 0xE⟩

/-- Settles O24: the copy is one register write, and the machine has the move's row exactly when P_HAS_MOV. -/
theorem registerMoveCopiesWhenEnabled : Obligations.RegisterMoveCopiesWhenEnabled := fun s x y =>
  ⟨⟨_, rfl, s.advance_setReg_spec x (s.reg y)⟩, toNat_wordXYN_group8 x y 0x0, fun c => dispatch_encode c (.movReg x y)⟩

end Sys2Proof.Machine
end

section
/-! set-index and random-AND-mask (45_index_random R210 to R212). set-index is one write of I to the advanced state, random-AND-mask one
register write and the count of its sample. -/

namespace Sys2Proof.Machine

theorem OnlyPcAndRegs.setI {ws : List Reg} {s t : State} (h : OnlyPcAndRegs ws s t) (w : Word) : OnlyPcIndexAndRegs ws s (t.setI w) := by
  obtain ⟨hregs, -, hrest⟩ := h
  exact ⟨hregs, hrest⟩

/-- Settles O25: the address field widens to I without loss. -/
theorem setIndexLoadsTheAddressField : Obligations.SetIndexLoadsTheAddressField := fun s nnn =>
  ⟨_, rfl, toNat_zextAddr nnn, rfl, (onlyPcAndRegs_advance [] s).setI _, toNat_wordA 0xA nnn⟩

/-- What random-AND-mask answers, as a register write to the advanced state and the count of its sample after it. -/
theorem exec_rnd (s : State) (x : Reg) (kk : Byte) :
    exec (.rnd x kk) s = .next (s.advance.setReg x (Config.rndPort s.rndNo &&& kk)).tookRnd := rfl

/-- No bit outside a mask is left after it. -/
theorem and_mask_and_not_mask (b kk : Byte) : b &&& kk &&& ~~~kk = 0 := by
  rw [BitVec.and_assoc, BitVec.and_not_self]
  exact BitVec.and_zero

/-- Settles O26: the register write has its frame, and counting the sample changes none of what that frame keeps but the count. -/
theorem randomByteIsMasked : Obligations.RandomByteIsMasked := by
  intro s x kk
  obtain ⟨hreg, hpc, hregs, hi, hmem, hstack, htimers, hdisplay, hrun, ⟨hcfg, hkeys, hstep, -⟩, houtputs⟩ :=
    s.advance_setReg_spec x (Config.rndPort s.rndNo &&& kk)
  have hsub : (s.advance.setReg x (Config.rndPort s.rndNo &&& kk)).reg x &&& ~~~kk = 0 := by
    rw [hreg, and_mask_and_not_mask]
  exact ⟨_, exec_rnd s x kk, hreg, hsub, rfl, hpc, hregs, hi, hmem, hstack, htimers, hdisplay, hrun, houtputs, hcfg, hkeys, hstep,
    toNat_wordXK 0xC x kk⟩

end Sys2Proof.Machine
end

section
/-! draw-sprite (46_draw_sprite R220 to R227). Its cells and its collision flag are read off through the machine's own test of a cell,
`State.spriteHits`. For the two loops of R220, the body toggles the cell its (row, column) offset falls on; no two offsets fall on the
same cell, so the loops toggle each cell at most once and their order does not matter (R223). -/

namespace Sys2Proof.Machine

/-! ### Buffers mapped cell by cell -/

theorem mapCells_mapCells (f g : Nat → Bool → Bool) (d : List Bool) :
    mapCells f (mapCells g d) = mapCells (fun k b => f k (g k b)) d :=
  List.ext_getElem (by simp) fun k _ h => by
    have hk : k < d.length := by simpa using h
    rw [getElem_mapCells _ _ _ (by simpa using hk), getElem_mapCells _ _ _ hk, getElem_mapCells _ _ _ hk]

theorem mapCells_eq_self {f : Nat → Bool → Bool} (hf : ∀ k b, f k b = b) (d : List Bool) : mapCells f d = d :=
  List.ext_getElem (by simp) fun k _ h => by rw [getElem_mapCells _ _ _ h, hf]

theorem mapCells_congr {f g : Nat → Bool → Bool} {d : List Bool} (hfg : ∀ k, k < d.length → f k = g k) : mapCells f d = mapCells g d :=
  List.ext_getElem (by simp) fun k h _ => by
    have hk : k < d.length := by simpa using h
    rw [getElem_mapCells _ _ _ hk, getElem_mapCells _ _ _ hk, hfg k hk]

/-! ### What draw-sprite answers -/

/-- The highest address of a sprite, from the bytes it reads (R221, R225). -/
theorem State.spriteLast_eq (s : State) (n : Nibble) : s.spriteLast n = s.i.toNat + (if n = 0 then 32 else n.toNat) - 1 := by
  rw [State.spriteLast, spriteHeight_mul_rowBytes]

theorem exec_drw_of_le {s : State} {x y : Reg} {n : Nibble} (h : s.i.toNat + (if n = 0 then 32 else n.toNat) ≤ 4096) :
    exec (.drw x y n) s = .next (s.drawSprite x y n) :=
  congrArg Host.Outcome.next (State.ifInRange_le _ (by rw [State.spriteLast_eq]; omega))

theorem exec_drw_of_gt {s : State} {x y : Reg} {n : Nibble} (h : 4096 < s.i.toNat + (if n = 0 then 32 else n.toNat)) :
    exec (.drw x y n) s = .next (s.raise .addressOutOfRange (s.i.toNat + (if n = 0 then 32 else n.toNat) - 1)
      (some (encode (.drw x y n)))) := by
  rw [← State.spriteLast_eq]
  exact congrArg Host.Outcome.next (State.ifInRange_gt _ (by rw [State.spriteLast_eq]; omega))

/-! ### The cells and the registers after a sprite -/

@[simp] theorem State.drawSprite_mode (s : State) (x y : Reg) (n : Nibble) : (s.drawSprite x y n).mode = s.mode := rfl

@[simp] theorem State.drawSprite_disp (s : State) (x y : Reg) (n : Nibble) : (s.drawSprite x y n).disp = s.spriteDrawn x y n := rfl

/-- An on-grid cell after a sprite: toggled exactly when a set sprite bit lands on it (R220). -/
theorem State.pixel_drawSprite {s : State} (hd : s.disp.length = s.mode.cols * s.mode.rows) (x y : Reg) (n : Nibble) {c r : Nat}
    (hg : s.onGrid c r) : (s.drawSprite x y n).pixel c r = (s.pixel c r != s.spriteHits x y n c r) := by
  rw [State.pixel, State.drawSprite_disp, State.drawSprite_mode,
    getD_spriteDrawn _ _ _ _ (State.onGrid.cellIndex_lt_length hd hg), cellIndex_mod r hg.1, cellIndex_div r hg.1]
  rfl

theorem State.reg_drawSprite (s : State) (x y : Reg) (n : Nibble) (q : Reg) :
    (s.drawSprite x y n).reg q = if s.spriteCollides x y n = true ∧ q = 15 then 1
      else if s.cfg.drawResetsVf = true ∧ q = 15 then 0 else s.reg q := by
  rw [State.drawSprite, State.redraw_reg, State.reg_setRegIf, State.setDisp_reg, State.reg_setRegIf]
  rfl

/-- VF after a sprite (R224): 1 on a collision, else what P_DRAW_RESETS_VF left there. -/
theorem State.reg_drawSprite_vf (s : State) (x y : Reg) (n : Nibble) :
    (s.drawSprite x y n).reg 15 = if s.spriteCollides x y n = true then 1
      else if s.cfg.drawResetsVf = true then 0 else s.reg 15 := by
  simp only [State.reg_drawSprite, and_true]

theorem sameRegsBut_drawSprite (s : State) (x y : Reg) (n : Nibble) : SameRegsBut [15] s (s.drawSprite x y n) := by
  intro r hr
  have hne : r ≠ 15 := List.ne_of_not_mem_cons hr
  simp only [State.reg_drawSprite, hne, and_false, if_false]

/-- The collision flag in the words of R220 and R224. -/
theorem spriteCollides_iff_landsOn {s : State} (hd : s.disp.length = s.mode.cols * s.mode.rows) (x y : Reg) (n : Nibble) :
    s.spriteCollides x y n = true ↔ ∃ c r, s.onGrid c r ∧ SpriteLandsOn s x y n c r ∧ s.pixel c r = true := by
  simp only [spriteCollides_iff_grid s x y n hd, spriteLandsOn_iff]

/-! ### A sprite drawn twice -/

/-- The sprite lands on the same cells from any two states that agree on what draw-sprite reads. -/
theorem State.spriteHits_congr {s t : State} {x y : Reg} (n : Nibble) (hbytes : ∀ a, t.byteAt a = s.byteAt a) (hi : t.i = s.i)
    (hmode : t.mode = s.mode) (hx : t.reg x = s.reg x) (hy : t.reg y = s.reg y) : t.spriteHits x y n = s.spriteHits x y n := by
  unfold State.spriteHits State.spriteBit State.anchorCol State.anchorRow
  simp only [hbytes, hi, hmode, hx, hy]

/-- A second sprite from the same place toggles back the cells the first toggled (R226). -/
theorem State.spriteDrawn_drawSprite {s : State} {x y : Reg} {n : Nibble} (hx : (s.drawSprite x y n).reg x = s.reg x)
    (hy : (s.drawSprite x y n).reg y = s.reg y) : (s.drawSprite x y n).spriteDrawn x y n = s.disp := by
  have hhits : (s.drawSprite x y n).spriteHits x y n = s.spriteHits x y n := State.spriteHits_congr n (fun _ => rfl) rfl rfl hx hy
  rw [State.spriteDrawn, hhits, State.drawSprite_mode, State.drawSprite_disp, State.spriteDrawn, mapCells_mapCells]
  exact mapCells_eq_self (fun k b => by rw [Bool.bne_assoc, bne_self_eq_false, Bool.bne_false]) s.disp

/-! ### The loops of R220 as a list of toggled cells -/

/-- One cell of the loop's buffer toggled, with a collision when it was set. -/
def DrawLoopState.toggle (a : DrawLoopState) (k : Nat) : DrawLoopState :=
  { disp := a.disp.set k (!a.disp.getD k false), collided := a.collided || a.disp.getD k false }

/-- The cell that the sprite's (row, column) offset falls on, when its bit is set and the cell is on the grid. -/
def State.spriteCell (s : State) (x y : Reg) (n : Nibble) (p : Nat × Nat) : Option Nat :=
  if s.spriteBit n p.2 p.1 = true ∧ s.anchorCol x + p.2 < s.mode.cols ∧ s.anchorRow y + p.1 < s.mode.rows then
    some ((s.anchorRow y + p.1) * s.mode.cols + (s.anchorCol x + p.2)) else none

/-- A toggle in the words of R220: a set cell becomes false and collides, a clear cell becomes true. -/
theorem DrawLoopState.toggle_eq_ite (a : DrawLoopState) (k : Nat) :
    a.toggle k = if a.disp.getD k false = true then { disp := a.disp.set k false, collided := true }
      else { a with disp := a.disp.set k true } := by
  unfold DrawLoopState.toggle
  cases a.disp.getD k false with
  | true => rw [Bool.or_true]; rfl
  | false => rw [Bool.or_false]; rfl

theorem drawLoopBody_eq (s : State) (x y : Reg) (n : Nibble) (a : DrawLoopState) (row col : Nat) :
    drawLoopBody s x y n row a col = (s.spriteCell x y n (row, col)).elim a a.toggle := by
  unfold drawLoopBody State.spriteCell
  cases s.spriteBit n col row with
  | false => rfl
  | true =>
    simp only [true_and, if_true, ← DrawLoopState.toggle_eq_ite]
    split <;> rfl

theorem State.spriteCell_eq_some_iff (s : State) (x y : Reg) (n : Nibble) (row col k : Nat) :
    s.spriteCell x y n (row, col) = some k ↔ s.spriteBit n col row = true ∧ k < s.mode.cols * s.mode.rows
      ∧ k % s.mode.cols = s.anchorCol x + col ∧ k / s.mode.cols = s.anchorRow y + row := by
  unfold State.spriteCell
  rw [Option.ite_none_right_eq_some, Option.some.injEq]
  constructor
  · rintro ⟨⟨hbit, hc, hr⟩, rfl⟩
    exact ⟨hbit, cellIndex_lt hc hr, cellIndex_mod _ hc, cellIndex_div _ hc⟩
  · rintro ⟨hbit, hk, hc, hr⟩
    refine ⟨⟨hbit, hc ▸ Nat.mod_lt _ s.mode.cols_pos, hr ▸ Nat.div_lt_of_lt_mul hk⟩, ?_⟩
    rw [← hc, ← hr, Nat.mul_comm, Nat.div_add_mod]

/-- The cells R220's loops toggle, in their order. -/
def State.spriteCells (s : State) (x y : Reg) (n : Nibble) : List Nat :=
  ((List.range (spriteHeight n)).product (List.range (spriteWidth n))).filterMap (s.spriteCell x y n)

theorem drawLoop_eq_foldl_toggle (s : State) (x y : Reg) (n : Nibble) :
    drawLoop s x y n = (s.spriteCells x y n).foldl DrawLoopState.toggle { disp := s.disp, collided := false } := by
  rw [drawLoop, State.spriteCells, List.foldl_filterMap, List.product, List.foldl_flatMap]
  refine List.foldl_ext _ _ _ fun a row _ => ?_
  rw [List.foldl_map]
  refine List.foldl_ext _ _ _ fun a col _ => ?_
  rw [drawLoopBody_eq]
  cases s.spriteCell x y n (row, col) <;> rfl

theorem State.mem_spriteCells {s : State} {x y : Reg} {n : Nibble} {k : Nat} :
    k ∈ s.spriteCells x y n ↔ k < s.mode.cols * s.mode.rows ∧ s.spriteHits x y n (k % s.mode.cols) (k / s.mode.cols) = true := by
  simp only [State.spriteCells, List.mem_filterMap, Prod.exists, List.pair_mem_product, List.mem_range,
    State.spriteCell_eq_some_iff, State.spriteHits, Bool.and_eq_true, decide_eq_true_eq]
  constructor
  · rintro ⟨row, col, ⟨hrow, hcol⟩, hbit, hk, hc, hr⟩
    rw [hc, hr, Nat.add_sub_cancel_left, Nat.add_sub_cancel_left]
    exact ⟨hk, by omega, hbit⟩
  · rintro ⟨hk, ⟨⟨⟨hc, hcW⟩, hr⟩, hrH⟩, hbit⟩
    exact ⟨_, _, ⟨by omega, by omega⟩, hbit, hk, by omega, by omega⟩

/-- Each cell is toggled at most once (R223): the cell determines the offset that falls on it. -/
theorem State.nodup_spriteCells (s : State) (x y : Reg) (n : Nibble) : (s.spriteCells x y n).Nodup := by
  refine List.Nodup.filterMap ?_ (List.nodup_range.product List.nodup_range)
  rintro ⟨row, col⟩ ⟨row', col'⟩ k h h'
  obtain ⟨-, -, hc, hr⟩ := (s.spriteCell_eq_some_iff ..).mp h
  obtain ⟨-, -, hc', hr'⟩ := (s.spriteCell_eq_some_iff ..).mp h'
  exact Prod.ext (by omega) (by omega)

theorem DrawLoopState.toggle_disp (a : DrawLoopState) (j : Nat) :
    (a.toggle j).disp = mapCells (fun k b => b != decide (k = j)) a.disp :=
  List.ext_getElem (by simp [DrawLoopState.toggle]) fun k _ h => by
    have hk : k < a.disp.length := by simpa using h
    rw [getElem_mapCells _ _ _ hk]
    by_cases hkj : k = j
    · subst k
      simp [DrawLoopState.toggle, hk]
    · simp [DrawLoopState.toggle, hkj, Ne.symm hkj]

theorem DrawLoopState.getD_toggle_ne (a : DrawLoopState) {j k : Nat} (h : k ≠ j) :
    (a.toggle j).disp.getD k false = a.disp.getD k false := by
  simp [DrawLoopState.toggle, h.symm]

/-- Toggling distinct cells one after the other is toggling them all at once. -/
theorem foldl_toggle_disp {cells : List Nat} (hnd : cells.Nodup) (a : DrawLoopState) :
    (cells.foldl DrawLoopState.toggle a).disp = mapCells (fun k b => b != decide (k ∈ cells)) a.disp := by
  induction cells generalizing a with
  | nil => exact (mapCells_eq_self (by simp) a.disp).symm
  | cons j cells ih =>
    obtain ⟨hj, hnd⟩ := List.nodup_cons.mp hnd
    rw [List.foldl_cons, ih hnd, DrawLoopState.toggle_disp, mapCells_mapCells]
    refine mapCells_congr fun k _ => funext fun b => ?_
    by_cases hkj : k = j
    · simp [hkj, hj]
    · simp [hkj]

/-- Toggling distinct cells collides when one of them was set before the first was toggled. -/
theorem foldl_toggle_collided {cells : List Nat} (hnd : cells.Nodup) (a : DrawLoopState) :
    (cells.foldl DrawLoopState.toggle a).collided = true ↔ a.collided = true ∨ ∃ k ∈ cells, a.disp.getD k false = true := by
  induction cells generalizing a with
  | nil => simp
  | cons j cells ih =>
    obtain ⟨hj, hnd⟩ := List.nodup_cons.mp hnd
    have hrest : (∃ k ∈ cells, (a.toggle j).disp.getD k false = true) ↔ ∃ k ∈ cells, a.disp.getD k false = true :=
      exists_congr fun k => and_congr_right fun hk => by rw [a.getD_toggle_ne (ne_of_mem_of_not_mem hk hj)]
    rw [List.foldl_cons, ih hnd, hrest, DrawLoopState.toggle, Bool.or_eq_true, List.exists_mem_cons_iff, or_assoc]

/-! ### The obligations -/

/-- Settles O28: the loops toggle the cells that the machine's test of a cell names, each once. -/
theorem drawEqualsTheNestedLoops : Obligations.DrawEqualsTheNestedLoops := by
  intro s x y n hd
  have hnd := s.nodup_spriteCells x y n
  have hdisp : (drawLoop s x y n).disp = s.spriteDrawn x y n := by
    rw [drawLoop_eq_foldl_toggle, foldl_toggle_disp hnd]
    refine mapCells_congr fun k hk => funext fun b => ?_
    simp only [State.mem_spriteCells, ← hd, hk, true_and, Bool.decide_eq_true]
  have hcollided : (drawLoop s x y n).collided = s.spriteCollides x y n := by
    rw [Bool.eq_iff_iff, drawLoop_eq_foldl_toggle, foldl_toggle_collided hnd, spriteCollides_iff]
    simp only [State.mem_spriteCells, ← hd, Bool.false_eq_true, false_or]
    exact exists_congr fun k => and_right_comm.trans and_assoc
  rw [← hdisp, ← hcollided]

/-- Settles O27: in range, the cells and VF after a sprite, with R220's landing and collision read as the machine's tests of them; past
4095, the fault. -/
theorem drawTogglesSpriteCells : Obligations.DrawTogglesSpriteCells := by
  rintro s x y n _ rfl hd
  refine ⟨fun hin => ⟨_, exec_drw_of_le hin, rfl, length_spriteDrawn .., ?_, ?_, ?_, ?_, rfl, rfl,
    sameRegsBut_drawSprite s x y n, rfl, fun _ => rfl, ⟨rfl, rfl⟩, ⟨rfl, rfl, rfl⟩, ⟨rfl, rfl⟩, ⟨rfl, rfl, rfl, rfl⟩, rfl⟩,
    fun hout => ⟨_, exec_drw_of_gt hout, s.raise_faultTaken ..⟩, toNat_wordXYN 0xD x y n⟩
  · intro c r hg hland
    rw [State.pixel_drawSprite hd x y n hg, (spriteLandsOn_iff ..).mp hland, Bool.bne_true]
  · intro c r hg hland
    rw [State.pixel_drawSprite hd x y n hg, Bool.eq_false_of_not_eq_true (hland ∘ (spriteLandsOn_iff ..).mpr), Bool.bne_false]
  · intro hcollision
    rw [State.reg_drawSprite_vf, if_pos ((spriteCollides_iff_landsOn hd x y n).mpr hcollision)]
  · intro hnone
    rw [State.reg_drawSprite_vf, if_neg (hnone ∘ (spriteCollides_iff_landsOn hd x y n).mp)]

/-- Settles O29: neither draw leaves the range, and the second toggles back what the first toggled. -/
theorem drawTwiceRestoresTheDisplay : Obligations.DrawTwiceRestoresTheDisplay := by
  intro s t u x y n hin ht hx hy hu
  obtain rfl := Host.Outcome.next.inj ((exec_drw_of_le hin).symm.trans ht)
  obtain rfl := Host.Outcome.next.inj ((exec_drw_of_le (s := s.drawSprite x y n) hin).symm.trans hu)
  exact State.spriteDrawn_drawSprite hx hy

end Sys2Proof.Machine
end

section
/-! Keys (47_keys R240 to R244). A key skip in range is the skip of the advanced state, with its frame; wait-for-key rewinds the advanced
state with no key latched, and else is one register write to it. -/

namespace Sys2Proof.Machine

/-- The fixed fields of a word first and its register after them, as the key words are written (R240 to R242). -/
theorem toNat_wordXK_fixed_add_reg (op : Nibble) (x : Reg) (kk : Byte) :
    (wordXK op x kk).toNat = 0x1000 * op.toNat + kk.toNat + 0x100 * x.val := by
  rw [toNat_wordXK, Nat.add_right_comm]

/-! ### What a key skip does -/

/-- With an index up to 15: where the skip lands, and its frame (R240, R241). -/
theorem State.keySkip_spec {s : State} {x : Reg} (h : (s.reg x).toNat ≤ 15) (ins : Instr) (down : Bool) :
    (s.keySkip ins x down).pc = (if s.keys.getLsbD (s.reg x).toNat = down then s.pc + 4 else s.pc + 2)
      ∧ OnlyPcAndRegs [] s (s.keySkip ins x down) := by
  rw [State.keySkip, if_neg h.not_gt]
  exact s.advance_skipIf_spec beq_iff_eq

/-- With an index above 15: the fault (R240, R241). -/
theorem State.keySkip_faultTaken {s : State} {x : Reg} (h : 15 < (s.reg x).toNat) (ins : Instr) (down : Bool) :
    FaultTaken s .keyIndexOutOfRange (s.reg x).toNat (some (encode ins)) (s.keySkip ins x down) := by
  rw [State.keySkip, if_pos h]
  exact s.raise_faultTaken ..

/-! ### What wait-for-key answers -/

theorem exec_ldVxK_of_none {s : State} {x : Reg} (h : highestKey s.keys = none) : exec (.ldVxK x) s = .next s.advance.rewind := by
  change execLdVxK x s = _
  rw [execLdVxK, h]

theorem exec_ldVxK_of_some {s : State} {x : Reg} {k : Nat} (h : highestKey s.keys = some k) :
    exec (.ldVxK x) s = .next (s.advance.setReg x (BitVec.ofNat 8 k)) := by
  change execLdVxK x s = _
  rw [execLdVxK, h]

/-- A rewind undoes the advance of PC (R242). -/
theorem State.advance_rewind_pc (s : State) : s.advance.rewind.pc = s.pc := BitVec.add_sub_cancel s.pc 2

/-! ### The obligations -/

/-- Settles O30: both are one key skip, by the two states of a key. -/
theorem keySkipsTestTheLatch : Obligations.KeySkipsTestTheLatch := fun _ x =>
  ⟨fun h => ⟨⟨_, rfl, State.keySkip_spec h (.skp x) true⟩, ⟨_, rfl, State.keySkip_spec h (.sknp x) false⟩⟩,
    fun h => ⟨⟨_, rfl, State.keySkip_faultTaken h (.skp x) true⟩, ⟨_, rfl, State.keySkip_faultTaken h (.sknp x) false⟩⟩,
    toNat_wordXK_fixed_add_reg 0xE x 0x9E, toNat_wordXK_fixed_add_reg 0xE x 0xA1⟩

/-- Settles O31: the two answers of wait-for-key, by what the scan of the latch finds; a key's index fits in a register. -/
theorem waitForKeyRewindsOrStoresHighestKey : Obligations.WaitForKeyRewindsOrStoresHighestKey := by
  intro s x
  refine ⟨fun hnone => ?_, fun k hk hdown habove => ?_, toNat_wordXK_fixed_add_reg 0xF x 0x0A⟩
  · exact ⟨_, exec_ldVxK_of_none (highestKey_eq_none hnone), s.advance_rewind_pc, rfl, fun _ _ => rfl, rfl, fun _ => rfl, ⟨rfl, rfl⟩,
      ⟨rfl, rfl, rfl⟩, ⟨rfl, rfl⟩, ⟨rfl, rfl⟩, ⟨rfl, rfl, rfl, rfl⟩, rfl⟩
  · obtain ⟨hreg, hpc, hframe⟩ := s.advance_setReg_spec x (BitVec.ofNat 8 k)
    have hindex : ((s.advance.setReg x (BitVec.ofNat 8 k)).reg x).toNat = k := by
      rw [hreg, BitVec.toNat_ofNat, Nat.mod_eq_of_lt (by omega)]
    exact ⟨_, exec_ldVxK_of_some (highestKey_eq_some hk hdown habove), hindex, hpc, hframe⟩

end Sys2Proof.Machine
end

section
/-! Timer, index and memory transfer (48_timer_index_memory R250 to R258). The timer and index instructions are one write to the advanced
state. A transfer in range is a run of byte stores or of register loads from the advanced state, with the frame of `State.advance` carried
through the run; out of range it is the fault of `State.ifInRange`. -/

namespace Sys2Proof.Machine

/-! ### Frames of a run of stores, a run of loads and a conditional write -/

theorem onlyPcAndMemory_advance (base n : Nat) (s : State) : OnlyPcAndMemory base n s s.advance := by
  obtain ⟨hregs, hi, hmem, hrest⟩ := onlyPcAndRegs_advance [] s
  exact ⟨hregs, hi, fun a _ => hmem a, hrest⟩

theorem SameMemoryBut.putBytes {base : Nat} {bs : List Byte} {s t : State} (h : SameMemoryBut base bs.length s t) :
    SameMemoryBut base bs.length s (t.putBytes base bs) := fun a ha =>
  (t.byteAt_putBytes_outside ha).trans (h a ha)

theorem OnlyPcAndMemory.putBytes {base : Nat} {bs : List Byte} {s t : State} (h : OnlyPcAndMemory base bs.length s t) :
    OnlyPcAndMemory base bs.length s (t.putBytes base bs) := by
  obtain ⟨hregs, hi, hmem, hrest⟩ := h
  have hstored := hmem.putBytes
  rw [State.putBytes_eq] at hstored ⊢
  exact ⟨hregs, hi, hstored, hrest⟩

theorem OnlyPcAndRegs.foldl_setReg {l : List Reg} {s t : State} (h : OnlyPcAndRegs l s t) (f : Reg → Byte) :
    OnlyPcAndRegs l s (l.foldl (fun u r => u.setReg r (f r)) t) :=
  List.foldlRecOn l _ h fun _ hu r hr => hu.setReg hr (f r)

theorem OnlyPcAndRegs.setRegIf {ws : List Reg} {s t : State} (h : OnlyPcAndRegs ws s t) {x : Reg} (hx : x ∈ ws) (c : Bool) (b : Byte) :
    OnlyPcAndRegs ws s (t.setRegIf c x b) := by
  rw [State.setRegIf_eq]
  split
  · exact h.setReg hx b
  · exact h

/-! ### Range checks and the binary-coded decimal -/

/-- An extent past the top of memory takes the fault with its highest address (R274, R282). -/
theorem State.ifInRange_faultTaken (s : State) (ins : Instr) {last : Nat} (u : State) (h : 4095 < last) :
    FaultTaken s .addressOutOfRange last (some (encode ins)) (s.ifInRange ins last u) := by
  rw [State.ifInRange_gt u h]
  exact s.raise_faultTaken ..

/-- In range, binary-coded-decimal answers the advanced state with the three digits stored from I on (R254). -/
theorem exec_ldB_of_le {s : State} {x : Reg} (h : s.i.toNat + 2 ≤ 4095) :
    exec (.ldB x) s = .next (s.advance.putBytes s.i.toNat (bcdDigits (s.reg x))) :=
  congrArg Host.Outcome.next (State.ifInRange_le _ h)

@[simp] theorem length_bcdDigits (b : Byte) : (bcdDigits b).length = 3 := rfl

/-- The digits as numbers, hundreds first: each fits in a byte (R254). -/
theorem map_toNat_bcdDigits (b : Byte) : (bcdDigits b).map BitVec.toNat = [b.toNat / 100, b.toNat / 10 % 10, b.toNat % 10] := by
  have hb : b.toNat < 256 := b.isLt
  have hhundreds : b.toNat / 100 < 256 := by omega
  have htens : b.toNat / 10 % 10 < 256 := by omega
  have hones : b.toNat % 10 < 256 := by omega
  simp [bcdDigits, Nat.mod_eq_of_lt, hhundreds, htens, hones]

/-- After a binary-coded-decimal in range, the bytes from I on are the digits (R254). -/
theorem byteAt_putBytes_bcdDigits {s : State} (hwf : Memory.wf s.cfg s.mem) (b : Byte) {a : Nat} (ha : a + 2 ≤ 4095) {k : Nat}
    (hk : k < 3) :
    ((s.putBytes a (bcdDigits b)).byteAt (a + k)).toNat = [b.toNat / 100, b.toNat / 10 % 10, b.toNat % 10][k] := by
  have hlen : a + (bcdDigits b).length ≤ 4096 := by rw [length_bcdDigits]; omega
  have hk' : k < (bcdDigits b).length := hk
  rw [State.byteAt_putBytes_inside hwf hlen hk', ← List.getElem_of_eq (map_toNat_bcdDigits b) (by rwa [List.length_map]),
    List.getElem_map]

/-! ### The obligations -/

/-- Settles O36: in range the three digits are a run of three stores, out of range the range check faults. -/
theorem bcdStoresThreeDigits : Obligations.BcdStoresThreeDigits := by
  intro s x hwf
  refine ⟨fun hle => ?_, fun hgt => ⟨_, rfl, s.ifInRange_faultTaken (.ldB x) _ hgt⟩, toNat_wordXK_fixed_add_reg 0xF x 0x33⟩
  have hdigit {k : Nat} (hk : k < 3) := byteAt_putBytes_bcdDigits (s := s.advance) hwf (s.reg x) hle hk
  exact ⟨_, exec_ldB_of_le hle, hdigit (k := 0) (by decide), hdigit (k := 1) (by decide), hdigit (k := 2) (by decide),
    State.putBytes_pc .., (onlyPcAndMemory_advance s.i.toNat 3 s).putBytes (bs := bcdDigits (s.reg x))⟩

/-- Settles O37: in range the registers are a run of X + 1 stores, out of range the range check faults. -/
theorem storeRegistersCopiesToMemory : Obligations.StoreRegistersCopiesToMemory := by
  intro s x hwf
  refine ⟨fun hle => ?_, fun hgt => ⟨_, rfl, s.ifInRange_faultTaken (.stRegs x) _ hgt⟩, toNat_wordXK_fixed_add_reg 0xF x 0x55⟩
  have hlen : ((regsUpTo x).map s.reg).length = x.val + 1 := by rw [List.length_map, length_regsUpTo]
  have hframe := (onlyPcAndMemory_advance s.i.toNat _ s).putBytes (bs := (regsUpTo x).map s.reg)
  rw [hlen] at hframe
  exact ⟨_, exec_stRegs_of_le hle, fun _ => byteAt_of_exec_stRegs hwf hle (exec_stRegs_of_le hle), State.putBytes_pc .., hframe⟩

/-- Settles O38: in range the loads write registers 0 to X alone, out of range the range check faults. -/
theorem loadRegistersCopiesFromMemory : Obligations.LoadRegistersCopiesFromMemory := by
  intro s x
  refine ⟨fun hle => ?_, fun hgt => ⟨_, rfl, s.ifInRange_faultTaken (.ldRegs x) _ hgt⟩, toNat_wordXK_fixed_add_reg 0xF x 0x65⟩
  have hframe := (onlyPcAndRegs_advance (regsUpTo x) s).foldl_setReg fun r => s.byteAt (s.i.toNat + r.val)
  refine ⟨_, exec_ldRegs_of_le hle, fun _ => reg_of_exec_ldRegs hle (exec_ldRegs_of_le hle), fun r hr => ?_, ?_, hframe⟩
  · exact hframe.1 r fun hmem => hr.not_ge (mem_regsUpTo.1 hmem)
  · rw [State.foldl_setReg_eq]
    rfl

/-- Settles O32: a read of DT keeps its low byte, a write zero-extends. -/
theorem delayTimerReadsAndWrites : Obligations.DelayTimerReadsAndWrites := by
  intro s x
  obtain ⟨hreg, hpc, hframe⟩ := s.advance_setReg_spec x (s.dt.setWidth 8)
  have hlow : ((s.advance.setReg x (s.dt.setWidth 8)).reg x).toNat = s.dt.toNat % 256 := by
    rw [hreg, BitVec.toNat_setWidth]
  obtain ⟨hregs, hi, hmem, hstack, -, hdisplay, hrun, hinputs, houtputs⟩ := onlyPcAndRegs_advance [] s
  exact ⟨⟨_, rfl, hlow, hpc, hframe, toNat_wordXK_fixed_add_reg 0xF x 0x07⟩,
    ⟨_, rfl, toNat_zextByte (s.reg x), rfl, rfl, rfl, hregs, hi, hmem, hstack, hdisplay, hrun, hinputs, houtputs,
      toNat_wordXK_fixed_add_reg 0xF x 0x15⟩⟩

/-- Settles O33: the reduced sum fits in I, and the one register written, if any, is VF. -/
theorem addToIndexWrapsModulo4096 : Obligations.AddToIndexWrapsModulo4096 := by
  intro s x
  have hsum : (BitVec.ofNat 16 ((s.i.toNat + (s.reg x).toNat) % 4096)).toNat = (s.i.toNat + (s.reg x).toNat) % 4096 := by
    rw [BitVec.toNat_ofNat, Nat.mod_eq_of_lt (by omega)]
  have hflag : (s.advance.setRegIf (decide (s.i.toNat + (s.reg x).toNat ≥ 4096)) regF 1).reg 15
      = if 4096 ≤ s.i.toNat + (s.reg x).toNat then 1 else s.reg 15 := by
    simp [State.reg_setRegIf, regF]
  have hframe := (onlyPcAndRegs_advance [15] s).setRegIf (List.mem_singleton_self regF)
  exact ⟨_, rfl, hsum, hflag, rfl, (hframe _ 1).setI _, toNat_wordXK_fixed_add_reg 0xF x 0x1E⟩

/-- Settles O34: with the font below the program origin the address does not wrap in I's 16 bits. -/
theorem glyphIndexIsBasePlusFiveTimesDigit : Obligations.GlyphIndexIsBasePlusFiveTimesDigit := by
  intro s x hc
  have hbase := ((Config.wf_iff _).1 hc).1
  have hdigit : (s.reg x).toNat < 256 := (s.reg x).isLt
  have haddress : (s.glyphAddress x).toNat = s.cfg.fontBase + 5 * (s.reg x).toNat := by
    rw [State.glyphAddress, BitVec.toNat_ofNat, Nat.mod_eq_of_lt (by omega)]
  exact ⟨_, rfl, haddress, rfl, (onlyPcAndRegs_advance [] s).setI _, toNat_wordXK_fixed_add_reg 0xF x 0x29⟩

/-- Settles O35: one write of ST to the advanced state, and the machine has its row exactly when P_HAS_SOUND_TIMER. -/
theorem soundTimerIsSetWhenEnabled : Obligations.SoundTimerIsSetWhenEnabled := by
  intro s x
  obtain ⟨hregs, hi, hmem, hstack, -, hdisplay, hrun, hinputs, houtputs⟩ := onlyPcAndRegs_advance [] s
  exact ⟨⟨_, rfl, toNat_zextByte (s.reg x), rfl, rfl, rfl, hregs, hi, hmem, hstack, hdisplay, hrun, hinputs, houtputs⟩,
    toNat_wordXK_fixed_add_reg 0xF x 0x18, fun c => dispatch_encode c (.ldStVx x)⟩

end Sys2Proof.Machine
end

section
/-! The unmapped opcode (60_exceptions R271): a step on a word that is not dispatched takes the fault, and 0x0000 is such a word. -/

namespace Sys2Proof.Machine

/-- A step of a running core on a word that is not dispatched takes the fault of R271. -/
theorem step_of_unmapped {s : State} {w : Word} (hrun : s.run = .running) (hf : s.beginStep.fetch = some w)
    (hd : dispatch s.cfg w = .unmapped w) : step s = .next (s.beginStep.raise .unmappedOpcode w.toNat (some w)) := by
  simp only [step, hrun, hf, runWord, State.beginStep_cfg, hd]

theorem dispatch_zero (c : Config) : dispatch c 0 = .unmapped 0 := rfl

/-- Settles O45: a word that matches no enabled row is one that is not dispatched, and 0x0000 is not dispatched. -/
theorem unmappedWordFaults : Obligations.UnmappedWordFaults := by
  intro s w hrun hf
  obtain ⟨hiff, -⟩ := unmappedExactlyWhenNoRowMatches s.cfg w
  refine ⟨fun hno => ⟨_, step_of_unmapped hrun hf (hiff.2 hno), State.raise_faultTaken ..⟩, ?_⟩
  rintro rfl
  exact hiff.1 (dispatch_zero s.cfg)

end Sys2Proof.Machine
end
